-- ==== Sys2Proof/Word.lean ====
section
/-! DEFINITION. The words of the block: bytes, operation words and the completion index (00_scope.md R6, R8;
30_encoding.md R67; 10_state.md R21, R25). No value of this block is signed. -/

namespace Sys2Proof

/-- An unsigned 8-bit value, `u8` (R6). Bit 0 is the least significant bit, bit 7 the top bit. -/
abbrev Byte := BitVec 8

/-- One 12-bit operation word, `op = w[11:8]`, `d = w[7:0]` (R67). -/
abbrev OpWord := BitVec 12

/-- The assembler state's 3-bit code (R21). -/
abbrev StCode := BitVec 3

/-- The completion index's 9 bits (R25). -/
abbrev EndIdx := BitVec 9

end Sys2Proof
end

