-- ==== Sys2Proof/Syntax.lean ====
section
/-! DEFINITION. The operations of the block (30_encoding.md R68), one constructor per row of the opcode table, what
the host issues (R67), the two pseudo-operations (R73), and why a word is no operation (R70). -/

namespace Sys2Proof

/-- The seven operations of R68. An operand is the `d` byte, used unchanged (R69). The frame-port sequence that
VALIDATE and ENCODE read is not part of the word: the host holds it on the frame port (R67, 20_memory.md R40). -/
inductive Instr where
  /-- `RESET`, op 0x0 (70_reset_and_hazards.md R190). -/
  | reset
  /-- `PUSH b`, op 0x1 (42_assembler.md R140). -/
  | push (b : Byte)
  /-- `TBL_READ i`, op 0x2 (40_checksum.md R108). -/
  | tblRead (i : Byte)
  /-- `CRC_CLR`, op 0x3 (40_checksum.md R109). -/
  | crcClr
  /-- `CRC_STEP b`, op 0x4 (40_checksum.md R110). -/
  | crcStep (b : Byte)
  /-- `VALIDATE`, op 0x5; its frame is on the frame port (41_framecodec.md R124). -/
  | validate
  /-- `ENCODE c`, op 0x6; its payload is on the frame port (41_framecodec.md R127). -/
  | encode (c : Byte)
deriving DecidableEq, Repr

/-- What the host issues in one go: a 12-bit operation word and the operand sequence on the frame port, which
only VALIDATE and ENCODE read (R67). -/
structure Operation where
  word : OpWord
  port : List Byte
deriving DecidableEq, Repr

/-- Why an operation word has no meaning: the two kinds of reserved word of R70. -/
inductive DecodeError where
  /-- `op` is in 0x7 to 0xF. -/
  | reservedOpcode (op : BitVec 4)
  /-- A RESET, CRC_CLR or VALIDATE word whose `d` is not 0. -/
  | nonzeroOperand (op : BitVec 4) (d : Byte)
deriving DecidableEq, Repr

/-- The shorthands of R73, which expand to real operations, one for one. -/
inductive PseudoOp where
  /-- `PUSHS [b0 ... bk]`. -/
  | pushs (bytes : List Byte)
  /-- `CRC8 [b0 ... bk]`. -/
  | crc8 (bytes : List Byte)
deriving DecidableEq, Repr

end Sys2Proof
end

