-- ==== Sys2Proof/WellFormed.lean ====
section
/-! DEFINITION. Which instructions and which operation words are well formed (30_encoding.md R69, R70, R75). It is
written from R70's prose, over the word as a number, and shares no text with the decoder, so that the statement
"the decoder accepts exactly the well-formed words" says something about both. -/

namespace Sys2Proof

/-- Every operand byte of every operation is legal: "every value is a valid index" (R69), every byte may be pushed,
folded or used as a command (R64), and ENCODE's payload bound "is a rule on the value, not on the spelling" (R74). -/
def Instr.wellFormed : Instr → Bool
  | .reset => true
  | .push _ => true
  | .tblRead _ => true
  | .crcClr => true
  | .crcStep _ => true
  | .validate => true
  | .encode _ => true

/-- The word's `op` is one of the seven assigned opcodes, 0x0 to 0x6 (R68, R70). -/
def opcodeAssigned (w : OpWord) : Bool := w.toNat / 256 ≤ 6

/-- `d` is 0 where it must be 0: RESET (0x0), CRC_CLR (0x3) and VALIDATE (0x5) (R68, R70). -/
def operandAllowed (w : OpWord) : Bool :=
  if w.toNat / 256 = 0 ∨ w.toNat / 256 = 3 ∨ w.toNat / 256 = 5 then w.toNat % 256 = 0 else true

/-- The word is not reserved (R70). -/
def wellFormedWord (w : OpWord) : Bool := opcodeAssigned w && operandAllowed w

end Sys2Proof
end

