-- ==== Sys2Proof/Decode.lean ====
section
/-! DEFINITION. The decoder and the encoder of operation words, from the opcode map of 30_encoding.md R68. -/

namespace Sys2Proof

/-- `op = w[11:8]` (R67). -/
def opField (w : OpWord) : BitVec 4 := w.extractLsb' 8 4

/-- `d = w[7:0]`, used unchanged as an unsigned byte (R67, R69). -/
def dField (w : OpWord) : Byte := w.extractLsb' 0 8

/-- An operation whose `d` must be 0x00: with another `d` the word is reserved (R70). -/
def decodeNoOperand (i : Instr) (w : OpWord) : Except DecodeError Instr :=
  if dField w = 0 then .ok i else .error (.nonzeroOperand (opField w) (dField w))

/-- The decoder of R68: total on 12-bit words (R75), refusing a reserved word by name (R70). -/
def decode (w : OpWord) : Except DecodeError Instr :=
  match (opField w).toNat with
  | 0x0 => decodeNoOperand .reset w
  | 0x1 => .ok (.push (dField w))
  | 0x2 => .ok (.tblRead (dField w))
  | 0x3 => decodeNoOperand .crcClr w
  | 0x4 => .ok (.crcStep (dField w))
  | 0x5 => decodeNoOperand .validate w
  | 0x6 => .ok (.encode (dField w))
  | _ => .error (.reservedOpcode (opField w))

/-- The word with the given `op` and `d` (R67). -/
def opWord (op : BitVec 4) (d : Byte) : OpWord := op ++ d

/-- The word of an instruction, from the encoding column of R68. -/
def encode : Instr → OpWord
  | .reset => opWord 0x0 0x00
  | .push b => opWord 0x1 b
  | .tblRead i => opWord 0x2 i
  | .crcClr => opWord 0x3 0x00
  | .crcStep b => opWord 0x4 b
  | .validate => opWord 0x5 0x00
  | .encode c => opWord 0x6 c

/-- The operation word a number stands for, its bits above `nbits` taken as 0; `none` for a number that does not
fit the 12 bits of an operation word.
DESIGN CHOICE, safe: log entry 9. -/
def tableWord (nbits w : Nat) : Option OpWord :=
  if w % 2 ^ nbits < 2 ^ 12 then some (BitVec.ofNat 12 (w % 2 ^ nbits)) else none

/-- What the decoder reads from an opcode-table row's bits: one 12-bit word, bit 0 the least significant. -/
def decodeTableWord (nbits w : Nat) : Option Instr :=
  match tableWord nbits w with
  | some v =>
    match decode v with
    | .ok i => some i
    | .error _ => none
  | none => none

end Sys2Proof
end

