-- ==== Sys2Proof/Config.lean ====
section
/-! DEFINITION. The implementation parameters of 00_scope.md R5. Every parameter but `CRC_TABLE_CONV` is fixed;
`CRC_TABLE_CONV` is OPEN, so the machine takes it as data (`State.conv`), one value per block (40_checksum.md R112).
No parameter is a free value: the spec leaves no result undefined. -/

namespace Sys2Proof

/-- `CRC_TABLE_CONV`, the bit-reflection convention of the CRC table (R5, R42, R101). -/
inductive TableConv where
  /-- `MSB_FIRST`, the spec's default: bit 7 of a byte is processed first (R42). -/
  | msbFirst
  /-- `REFLECTED`: bit 0 of a byte is processed first (R42). -/
  | reflected
deriving DecidableEq, Repr

namespace Config

/-- `POLY` = 0xD5 (R5, R100). -/
abbrev poly : Byte := 0xD5

/-- 0xAB, which is 0xD5 with its bits reversed, the constant of `gen_REFLECTED` (R101). -/
abbrev polyReflected : Byte := 0xAB

/-- `CRC_INIT` = 0x00 (R5). `CRC_XOROUT` is 0x00, so `crc8` has no final step (R5, R105). -/
abbrev crcInit : Byte := 0x00

/-- The default of the OPEN parameter `CRC_TABLE_CONV` (R5).
DESIGN CHOICE, unsafe: the spec's own default of a parameter its source leaves open; log entry 3. -/
def crcTableConvDefault : TableConv := .msbFirst

/-- `SYNC_BYTE` = 0xAA (R5, R63). -/
abbrev syncByte : Byte := 0xAA

/-- `HEADER_BYTE` = 0x55 (R5, R63). -/
abbrev headerByte : Byte := 0x55

/-- `MAX_PAYLOAD` = 255, since `LEN_WIDTH` is 8 bits (R5, R65). -/
abbrev maxPayload : Nat := 255

/-- `MIN_FRAME` = 5 bytes (R5, R61). -/
abbrev minFrame : Nat := 5

/-- `MAX_FRAME` = 260 bytes (R5, R61). -/
abbrev maxFrame : Nat := 260

/-- `BUF_CAPACITY` = 260 bytes, the largest frame (R5, R22). -/
abbrev bufCapacity : Nat := maxFrame

end Config

end Sys2Proof
end

