-- ==== Sys2Proof/Machine/State.lean ====
section
/-! DEFINITION. The block's state (10_state.md R20), its events (R29), its marks (R30), the reasons a step can stop,
and the state at power-on (R34, 70_reset_and_hazards.md R191). -/

namespace Sys2Proof.Machine

open Sys2Proof

/-- The six states of the assembler (R21). -/
inductive AsmState where
  | sync | header | command | length | data | crc
deriving DecidableEq, Repr

/-- An error result of the validator (41_framecodec.md R122); both stand for the source's ChecksumError. -/
inductive ValError where
  /-- `ERR_SHORT`: fewer than 5 bytes. -/
  | errShort
  /-- `ERR_CRC`: CRC mismatch. -/
  | errCrc
deriving DecidableEq, Repr

/-- `ValResult`, the validator's result (41_framecodec.md R122). -/
inductive ValResult where
  /-- `OK(command, length, payload)`. -/
  | ok (command length : Byte) (payload : List Byte)
  /-- `ERR_SHORT` or `ERR_CRC`. -/
  | err (reason : ValError)
deriving DecidableEq, Repr

/-- The event kinds of the output trace (R29). -/
inductive Event where
  /-- `DISPATCH(c, l, p)`: a CRC-valid frame goes to the dispatcher. -/
  | dispatch (command length : Byte) (payload : List Byte)
  /-- `CRC_ERROR(reason)`: a completed candidate frame failed validation and was dropped. -/
  | crcError (reason : ValError)
  /-- `TABLE(v)`: the table entry read. -/
  | table (v : Byte)
  /-- `CRC(v)`: the new value of `crc_acc`. -/
  | crc (v : Byte)
  /-- `VALID(r)`: the validator's result. -/
  | valid (r : ValResult)
  /-- `FRAME(f)`: the frame built. -/
  | frame (f : List Byte)
deriving DecidableEq, Repr

/-- The reasons of the sticky `fault` mark (R30). An operation that raises one takes a NEXT state with the mark set,
because "Later operations still run" (60_exceptions.md R175); it is not an outcome that stops the machine. -/
inductive FaultMark where
  /-- `FAULT_PAYLOAD_TOO_LONG` = 1, raised by ENCODE when `|p| > 255` (41_framecodec.md R126). -/
  | payloadTooLong
  /-- `FAULT_ILLEGAL_STATE` = 2, raised by PUSH when `st` is 6 or 7 (42_assembler.md R147). -/
  | illegalState
deriving DecidableEq, Repr

/-- The reasons of the sticky `refused` mark (R30); set by a NEXT state, as for `FaultMark` (60_exceptions.md R176). -/
inductive RefusedMark where
  /-- `RESERVED_OP`, recorded for a reserved operation word (30_encoding.md R70). -/
  | reservedOp
deriving DecidableEq, Repr

/-- Why a step stops with a fault. The spec's own faults are marks (`FaultMark`), not stops. -/
inductive Fault where
  /-- A PUSH would write BUF at an index above 259. The spec says no such index exists (20_memory.md R40, R46), and
  that no reachable state meets it (42_assembler.md R153). Raised by `appendBuf` only.
  DESIGN CHOICE, safe: the machine stops; log entry 6. -/
  | bufIndexOutOfRange
deriving DecidableEq, Repr

/-- Why a step is refused. No arm of `exec` is refused: every operation has its meaning. -/
inductive Refusal where
  /-- An instruction with no meaning yet, by its mnemonic. Raised by nothing in this model; safe. -/
  | notModelled (mnemonic : String)
deriving DecidableEq, Repr

/-- The block's state: the nine fields of R20, then three fields of the model's own that hold what the host side
fixes or supplies. -/
structure State where
  /-- `st`, the assembler's 3-bit state code (R21). -/
  st : StCode
  /-- `buf`, the candidate-frame buffer in arrival order, at most 260 bytes (R22). -/
  buf : List Byte
  /-- `cmd`, the last command byte accepted (R23). -/
  cmd : Byte
  /-- `plen`, the last length byte accepted (R24). -/
  plen : Byte
  /-- `end_idx`, the completion index (R25). -/
  endIdx : EndIdx
  /-- `crc_acc`, the CRC engine's accumulator (R27). -/
  crcAcc : Byte
  /-- `out`, the events emitted, oldest first (R29). -/
  out : List Event
  /-- `fault`, the first fault raised, if any (R30). -/
  fault : Option FaultMark
  /-- `refused`, the first refusal recorded, if any (R30). -/
  refused : Option RefusedMark
  /-- MODEL'S OWN: the value of the OPEN parameter `CRC_TABLE_CONV` of this block (00_scope.md R5). No operation
  writes it (40_checksum.md R112). DESIGN CHOICE, log entry 3. -/
  conv : TableConv
  /-- MODEL'S OWN: the sequence the host holds on the frame port for the operation being run (20_memory.md R40).
  DESIGN CHOICE, log entry 2. -/
  port : List Byte
  /-- MODEL'S OWN: the operations the host has still to issue, in issue order (20_memory.md R48,
  70_reset_and_hazards.md R193). DESIGN CHOICE, log entry 1. -/
  ops : List Operation
deriving DecidableEq, Repr

/-- The power-on state (R34, R191): the reset state, with an empty trace and no marks. The parameter has its default,
and the host has issued nothing. -/
def State.reset : State where
  st := 0
  buf := []
  cmd := 0x00
  plen := 0x00
  endIdx := 0
  crcAcc := 0x00
  out := []
  fault := none
  refused := none
  conv := Config.crcTableConvDefault
  port := []
  ops := []

end Sys2Proof.Machine
end

