-- ==== Sys2Proof/Machine/Ops.lean ====
section
/-! DEFINITION. The named operations over the state: the pseudocode primitives of 00_scope.md R9 and the writes the
operation rules share. The block has no trap entry and no trap return (60_exceptions.md R170, R178, R179): a condition sets a
mark or returns the assembler to SYNC, inside the operation that meets it. -/

namespace Sys2Proof.Machine

open Sys2Proof

/-- The 3-bit code of an assembler state (10_state.md R21). -/
def stCode : AsmState → StCode
  | .sync => 0
  | .header => 1
  | .command => 2
  | .length => 3
  | .data => 4
  | .crc => 5

/-- The assembler state a code names; 6 and 7 name none (R21). -/
def stOfCode (c : StCode) : Option AsmState :=
  match c.toNat with
  | 0 => some .sync
  | 1 => some .header
  | 2 => some .command
  | 3 => some .length
  | 4 => some .data
  | 5 => some .crc
  | _ => none

/-- `st <- a`. -/
def setSt (a : AsmState) (s : State) : State := { s with st := stCode a }

/-- `buf <- f`. -/
def setBuf (f : List Byte) (s : State) : State := { s with buf := f }

/-- `cmd <- b`. -/
def setCmd (b : Byte) (s : State) : State := { s with cmd := b }

/-- `plen <- b`. -/
def setPlen (b : Byte) (s : State) : State := { s with plen := b }

/-- `end_idx <- n`, kept in 9 bits (R25). Reachable sums are at most 258 (R8).
DESIGN CHOICE for the unreachable ones, unsafe: log entry 7. -/
def setEndIdx (n : Nat) (s : State) : State := { s with endIdx := BitVec.ofNat 9 n }

/-- `crc_acc <- c`. -/
def setCrcAcc (c : Byte) (s : State) : State := { s with crcAcc := c }

/-- `emit e`: the event goes to the end of the trace (R9, R29). -/
def emit (e : Event) (s : State) : State := { s with out := s.out ++ [e] }

/-- A sticky mark keeps its first reason (60_exceptions.md R175, R176). -/
def firstMark {α : Type} (old : Option α) (new : α) : Option α :=
  match old with
  | none => some new
  | some r => some r

/-- `raise Fault(r)`: the mark is set if none is, and nothing else is written (60_exceptions.md R175). -/
def raiseFault (r : FaultMark) (s : State) : State := { s with fault := firstMark s.fault r }

/-- `refuse(r)`: the mark is set if none is, and nothing else is written (60_exceptions.md R176). -/
def refuse (r : RefusedMark) (s : State) : State := { s with refused := firstMark s.refused r }

/-- `buf <- []; st <- SYNC`: the resync, and the end of the CRC arm (42_assembler.md R142, R146). -/
def resync (s : State) : State := setSt .sync (setBuf [] s)

/-- `buf <- buf ++ [b]`, the block's only memory write, `MemWrite(BUF, |buf|, 1, b)` (00_scope.md R9), then `k`. BUF has the
indices 0 to 259 and no other (20_memory.md R40, R46), so a write at index 260 or above stops. No reachable state meets
that stop (42_assembler.md R153). DESIGN CHOICE, safe: log entry 6. -/
def appendBuf (b : Byte) (k : State → State) (s : State) : Host.Outcome State Fault Refusal :=
  if s.buf.length < Config.bufCapacity then .next (k (setBuf (s.buf ++ [b]) s)) else .fault .bufIndexOutOfRange

/-- The host issues `op`: its frame-port sequence stands on the frame port while it runs, and `rest` is what the
host has still to issue (30_encoding.md R67, 20_memory.md R48). -/
def present (op : Operation) (rest : List Operation) (s : State) : State := { s with port := op.port, ops := rest }

/-- The word `w` becomes the next operation the host issues, with the sequence now on the frame port. -/
def placeWord (w : OpWord) (s : State) : State := { s with ops := { word := w, port := s.port } :: s.ops }

end Sys2Proof.Machine
end

