-- ==== Sys2Proof/Machine/Checksum.lean ====
section
/-! DEFINITION. The CRC-8 table generator, the table and the CRC engine (40_checksum.md), with the operations TBL_READ,
CRC_CLR and CRC_STEP. -/

namespace Sys2Proof.Machine

open Sys2Proof

/-- One of the eight steps of `gen_MSB_FIRST` (R101); `<<` drops the old bit 7 (R8). -/
def genStepMsbFirst (c : Byte) : Byte :=
  if c.getLsbD 7 then (c <<< 1) ^^^ Config.poly else c <<< 1

/-- One of the eight steps of `gen_REFLECTED` (R101). -/
def genStepReflected (c : Byte) : Byte :=
  if c.getLsbD 0 then (c >>> 1) ^^^ Config.polyReflected else c >>> 1

/-- One generator step under the given convention (R101). -/
def genStep : TableConv → Byte → Byte
  | .msbFirst => genStepMsbFirst
  | .reflected => genStepReflected

/-- `repeat 8 times` of R101 and R106. -/
def repeatEight (f : Byte → Byte) (c : Byte) : Byte := f (f (f (f (f (f (f (f c)))))))

/-- The table generator `gen(i)` (R101). -/
def gen (conv : TableConv) (i : Byte) : Byte := repeatEight (genStep conv) i

/-- The table for `MSB_FIRST`, row by row as R102 prints it. -/
def romMsbFirst : List Byte :=
  [0x00, 0xD5, 0x7F, 0xAA, 0xFE, 0x2B, 0x81, 0x54, 0x29, 0xFC, 0x56, 0x83, 0xD7, 0x02, 0xA8, 0x7D] ++
  [0x52, 0x87, 0x2D, 0xF8, 0xAC, 0x79, 0xD3, 0x06, 0x7B, 0xAE, 0x04, 0xD1, 0x85, 0x50, 0xFA, 0x2F] ++
  [0xA4, 0x71, 0xDB, 0x0E, 0x5A, 0x8F, 0x25, 0xF0, 0x8D, 0x58, 0xF2, 0x27, 0x73, 0xA6, 0x0C, 0xD9] ++
  [0xF6, 0x23, 0x89, 0x5C, 0x08, 0xDD, 0x77, 0xA2, 0xDF, 0x0A, 0xA0, 0x75, 0x21, 0xF4, 0x5E, 0x8B] ++
  [0x9D, 0x48, 0xE2, 0x37, 0x63, 0xB6, 0x1C, 0xC9, 0xB4, 0x61, 0xCB, 0x1E, 0x4A, 0x9F, 0x35, 0xE0] ++
  [0xCF, 0x1A, 0xB0, 0x65, 0x31, 0xE4, 0x4E, 0x9B, 0xE6, 0x33, 0x99, 0x4C, 0x18, 0xCD, 0x67, 0xB2] ++
  [0x39, 0xEC, 0x46, 0x93, 0xC7, 0x12, 0xB8, 0x6D, 0x10, 0xC5, 0x6F, 0xBA, 0xEE, 0x3B, 0x91, 0x44] ++
  [0x6B, 0xBE, 0x14, 0xC1, 0x95, 0x40, 0xEA, 0x3F, 0x42, 0x97, 0x3D, 0xE8, 0xBC, 0x69, 0xC3, 0x16] ++
  [0xEF, 0x3A, 0x90, 0x45, 0x11, 0xC4, 0x6E, 0xBB, 0xC6, 0x13, 0xB9, 0x6C, 0x38, 0xED, 0x47, 0x92] ++
  [0xBD, 0x68, 0xC2, 0x17, 0x43, 0x96, 0x3C, 0xE9, 0x94, 0x41, 0xEB, 0x3E, 0x6A, 0xBF, 0x15, 0xC0] ++
  [0x4B, 0x9E, 0x34, 0xE1, 0xB5, 0x60, 0xCA, 0x1F, 0x62, 0xB7, 0x1D, 0xC8, 0x9C, 0x49, 0xE3, 0x36] ++
  [0x19, 0xCC, 0x66, 0xB3, 0xE7, 0x32, 0x98, 0x4D, 0x30, 0xE5, 0x4F, 0x9A, 0xCE, 0x1B, 0xB1, 0x64] ++
  [0x72, 0xA7, 0x0D, 0xD8, 0x8C, 0x59, 0xF3, 0x26, 0x5B, 0x8E, 0x24, 0xF1, 0xA5, 0x70, 0xDA, 0x0F] ++
  [0x20, 0xF5, 0x5F, 0x8A, 0xDE, 0x0B, 0xA1, 0x74, 0x09, 0xDC, 0x76, 0xA3, 0xF7, 0x22, 0x88, 0x5D] ++
  [0xD6, 0x03, 0xA9, 0x7C, 0x28, 0xFD, 0x57, 0x82, 0xFF, 0x2A, 0x80, 0x55, 0x01, 0xD4, 0x7E, 0xAB] ++
  [0x84, 0x51, 0xFB, 0x2E, 0x7A, 0xAF, 0x05, 0xD0, 0xAD, 0x78, 0xD2, 0x07, 0x53, 0x86, 0x2C, 0xF9]

/-- The table for `REFLECTED`, row by row as R103 prints it. -/
def romReflected : List Byte :=
  [0x00, 0xF7, 0xB9, 0x4E, 0x25, 0xD2, 0x9C, 0x6B, 0x4A, 0xBD, 0xF3, 0x04, 0x6F, 0x98, 0xD6, 0x21] ++
  [0x94, 0x63, 0x2D, 0xDA, 0xB1, 0x46, 0x08, 0xFF, 0xDE, 0x29, 0x67, 0x90, 0xFB, 0x0C, 0x42, 0xB5] ++
  [0x7F, 0x88, 0xC6, 0x31, 0x5A, 0xAD, 0xE3, 0x14, 0x35, 0xC2, 0x8C, 0x7B, 0x10, 0xE7, 0xA9, 0x5E] ++
  [0xEB, 0x1C, 0x52, 0xA5, 0xCE, 0x39, 0x77, 0x80, 0xA1, 0x56, 0x18, 0xEF, 0x84, 0x73, 0x3D, 0xCA] ++
  [0xFE, 0x09, 0x47, 0xB0, 0xDB, 0x2C, 0x62, 0x95, 0xB4, 0x43, 0x0D, 0xFA, 0x91, 0x66, 0x28, 0xDF] ++
  [0x6A, 0x9D, 0xD3, 0x24, 0x4F, 0xB8, 0xF6, 0x01, 0x20, 0xD7, 0x99, 0x6E, 0x05, 0xF2, 0xBC, 0x4B] ++
  [0x81, 0x76, 0x38, 0xCF, 0xA4, 0x53, 0x1D, 0xEA, 0xCB, 0x3C, 0x72, 0x85, 0xEE, 0x19, 0x57, 0xA0] ++
  [0x15, 0xE2, 0xAC, 0x5B, 0x30, 0xC7, 0x89, 0x7E, 0x5F, 0xA8, 0xE6, 0x11, 0x7A, 0x8D, 0xC3, 0x34] ++
  [0xAB, 0x5C, 0x12, 0xE5, 0x8E, 0x79, 0x37, 0xC0, 0xE1, 0x16, 0x58, 0xAF, 0xC4, 0x33, 0x7D, 0x8A] ++
  [0x3F, 0xC8, 0x86, 0x71, 0x1A, 0xED, 0xA3, 0x54, 0x75, 0x82, 0xCC, 0x3B, 0x50, 0xA7, 0xE9, 0x1E] ++
  [0xD4, 0x23, 0x6D, 0x9A, 0xF1, 0x06, 0x48, 0xBF, 0x9E, 0x69, 0x27, 0xD0, 0xBB, 0x4C, 0x02, 0xF5] ++
  [0x40, 0xB7, 0xF9, 0x0E, 0x65, 0x92, 0xDC, 0x2B, 0x0A, 0xFD, 0xB3, 0x44, 0x2F, 0xD8, 0x96, 0x61] ++
  [0x55, 0xA2, 0xEC, 0x1B, 0x70, 0x87, 0xC9, 0x3E, 0x1F, 0xE8, 0xA6, 0x51, 0x3A, 0xCD, 0x83, 0x74] ++
  [0xC1, 0x36, 0x78, 0x8F, 0xE4, 0x13, 0x5D, 0xAA, 0x8B, 0x7C, 0x32, 0xC5, 0xAE, 0x59, 0x17, 0xE0] ++
  [0x2A, 0xDD, 0x93, 0x64, 0x0F, 0xF8, 0xB6, 0x41, 0x60, 0x97, 0xD9, 0x2E, 0x45, 0xB2, 0xFC, 0x0B] ++
  [0xBE, 0x49, 0x07, 0xF0, 0x9B, 0x6C, 0x22, 0xD5, 0xF4, 0x03, 0x4D, 0xBA, 0xD1, 0x26, 0x68, 0x9F]

/-- `CRC_TABLE`, the constant array `T` of 256 bytes (10_state.md R28), for either value of the parameter. -/
def crcTable : TableConv → List Byte
  | .msbFirst => romMsbFirst
  | .reflected => romReflected

/-- `T[i]`, the block's only table read, `MemRead(TABLE, i, 1)` (00_scope.md R9). Every index is a byte and every byte is
a valid index (20_memory.md R40, R46): the value after `getD` is never used (`crcTable_length`). -/
def tableRead (conv : TableConv) (i : Byte) : Byte := (crcTable conv).getD i.toNat 0x00

/-- One fold of a byte into a CRC register: `c <- T[c ^ b]` (R105, R110). -/
def crcFold (conv : TableConv) (c b : Byte) : Byte := tableRead conv (c ^^^ b)

/-- `crc8(s)` (R105): from `CRC_INIT`, one table read a byte from `s[0]` on, no final XOR, no output reflection. -/
def crc8 (conv : TableConv) (s : List Byte) : Byte := s.foldl (crcFold conv) Config.crcInit

/-- One byte of the bit-serial form of R106. -/
def crcBitwiseFold (c b : Byte) : Byte := repeatEight genStepMsbFirst (c ^^^ b)

/-- The bit-serial form of `crc8` under `MSB_FIRST`, with no table (R106). -/
def crc8Bitwise (s : List Byte) : Byte := s.foldl crcBitwiseFold 0x00

/-- TBL_READ (R108): `emit TABLE(T[i])`. -/
def execTblRead (i : Byte) (s : State) : Host.Outcome State Fault Refusal :=
  .next (emit (.table (tableRead s.conv i)) s)

/-- `crc_acc <- c; emit CRC(crc_acc)`, shared by CRC_CLR and CRC_STEP (R109, R110). -/
def setAndReportCrc (c : Byte) (s : State) : State := emit (.crc c) (setCrcAcc c s)

/-- CRC_CLR (R109): `crc_acc <- CRC_INIT; emit CRC(crc_acc)`. -/
def execCrcClr (s : State) : Host.Outcome State Fault Refusal :=
  .next (setAndReportCrc Config.crcInit s)

/-- CRC_STEP (R110): `crc_acc <- T[crc_acc ^ b]; emit CRC(crc_acc)`. -/
def execCrcStep (b : Byte) (s : State) : Host.Outcome State Fault Refusal :=
  .next (setAndReportCrc (crcFold s.conv s.crcAcc b) s)

end Sys2Proof.Machine
end

