-- ==== Sys2Proof/Machine/Operands.lean ====
section
/-! DEFINITION. The operand forms: sequences and their subsequences (00_scope.md R7), the running index (10_state.md
R26), and the frame port (20_memory.md R40, 30_encoding.md R69). The `d` byte is used unchanged, so it has no form of its own. -/

namespace Sys2Proof.Machine

open Sys2Proof

/-- `f[a..b]`, inclusive, empty when `b < a` (00_scope.md R7). -/
def slice (f : List Byte) (a b : Nat) : List Byte := (f.drop a).take (b + 1 - a)

/-- The running index of the byte being processed, `n = |buf|` before it is appended (10_state.md R26). -/
def runningIndex (s : State) : Nat := s.buf.length

/-- VALIDATE's frame, the whole frame-port sequence, of any length (30_encoding.md R69). -/
def portFrame (s : State) : List Byte := s.port

/-- ENCODE's payload, the whole frame-port sequence, of any length (30_encoding.md R69, R74). -/
def portPayload (s : State) : List Byte := s.port

end Sys2Proof.Machine
end

