-- ==== Sys2Proof/Machine/FrameCodec.lean ====
section
/-! DEFINITION. The frame validator and the frame builder (41_framecodec.md), with the operations VALIDATE and ENCODE. -/

namespace Sys2Proof.Machine

open Sys2Proof

/-- `validate(f)` (R120): the length test, then the CRC over `f[2..n-2]` against the last byte. It makes no other check
(R123), and no byte pattern bypasses the CRC compare (R130). -/
def validateFrame (conv : TableConv) (f : List Byte) : ValResult :=
  if short : f.length < Config.minFrame then .err .errShort
  else
    have long : 5 ≤ f.length := Nat.le_of_not_lt short
    if crc8 conv (slice f 2 (f.length - 2)) = f[f.length - 1] then
      .ok f[2] f[3] (slice f 4 (f.length - 2))
    else .err .errCrc

/-- The codes of the validator's results (R122). -/
def resultCode : ValResult → Nat
  | .ok _ _ _ => 0
  | .err .errShort => 1
  | .err .errCrc => 2

/-- The codes of the faults (60_exceptions.md R171). -/
def faultCode : FaultMark → Nat
  | .payloadTooLong => 1
  | .illegalState => 2

/-- The bytes a frame's CRC covers: COMMAND, LENGTH and PAYLOAD (30_encoding.md R62). -/
def coveredBytes (c l : Byte) (p : List Byte) : List Byte := [c, l] ++ p

/-- `L <- |p|`, as a byte (R125). A payload of more than 255 bytes has no length byte, and none is made up by wrapping
(R126, 93_implementation_defined.md ID1). -/
def payloadLength (p : List Byte) : Option Byte :=
  if p.length ≤ Config.maxPayload then some (BitVec.ofNat 8 p.length) else none

/-- `encode(c, p)` (R125); no result when `|p| > 255` (R126). -/
def buildFrame (conv : TableConv) (c : Byte) (p : List Byte) : Option (List Byte) :=
  match payloadLength p with
  | some l => some ([Config.syncByte, Config.headerByte] ++ coveredBytes c l p ++ [crc8 conv (coveredBytes c l p)])
  | none => none

/-- VALIDATE (R124): `emit VALID(validate(f))`. -/
def execValidate (s : State) : Host.Outcome State Fault Refusal :=
  .next (emit (.valid (validateFrame s.conv (portFrame s))) s)

/-- ENCODE (R127): a payload that has no frame, one of more than 255 bytes, raises FAULT_PAYLOAD_TOO_LONG and does
nothing else (R126). -/
def execEncode (c : Byte) (s : State) : Host.Outcome State Fault Refusal :=
  match buildFrame s.conv c (portPayload s) with
  | some f => .next (emit (.frame f) s)
  | none => .next (raiseFault .payloadTooLong s)

end Sys2Proof.Machine
end

