-- ==== Sys2Proof/Machine/Assembler.lean ====
section
/-! DEFINITION. The frame assembler (42_assembler.md): PUSH and its arms, one per value of `st`. -/

namespace Sys2Proof.Machine

open Sys2Proof

/-- SYNC arm (R141): the sync byte starts a candidate frame, any other byte is discarded. -/
def pushSync (b : Byte) (s : State) : Host.Outcome State Fault Refusal :=
  if b = Config.syncByte then .next (setSt .header (setBuf [b] s)) else .next (resync s)

/-- HEADER arm (R142): a wrong header byte is consumed by the resync and not examined again. -/
def pushHeader (b : Byte) (s : State) : Host.Outcome State Fault Refusal :=
  if b = Config.headerByte then appendBuf b (setSt .command) s else .next (resync s)

/-- COMMAND arm (R143): the command byte is recorded, not validated. -/
def pushCommand (b : Byte) (s : State) : Host.Outcome State Fault Refusal :=
  appendBuf b (fun t => setSt .length (setCmd b t)) s

/-- What the LENGTH arm writes besides `buf`; `n` is the length byte's index (R144). -/
def recordLength (n : Nat) (b : Byte) (t : State) : State :=
  if b = 0 then setSt .crc (setPlen b t) else setSt .data (setEndIdx (n + b.toNat) (setPlen b t))

/-- LENGTH arm (R144). -/
def pushLength (b : Byte) (s : State) : Host.Outcome State Fault Refusal :=
  appendBuf b (recordLength (runningIndex s) b) s

/-- DATA arm (R145): the test reads the index of the byte just taken, before `|buf|` grows. -/
def pushData (b : Byte) (s : State) : Host.Outcome State Fault Refusal :=
  appendBuf b (setSt (if runningIndex s = s.endIdx.toNat then .crc else .data)) s

/-- The event the CRC arm emits for the validator's result (R146). -/
def frameEvent : ValResult → Event
  | .ok c l p => .dispatch c l p
  | .err r => .crcError r

/-- `r <- validate(buf)`, the hand-off or the drop, and the return to SYNC in both cases (R146). -/
def finishFrame (t : State) : State := resync (emit (frameEvent (validateFrame t.conv t.buf)) t)

/-- CRC arm (R146). -/
def pushCrc (b : Byte) (s : State) : Host.Outcome State Fault Refusal := appendBuf b finishFrame s

/-- PUSH (R140): the arm that `st` selects; the codes 6 and 7 raise FAULT_ILLEGAL_STATE (R147). -/
def execPush (b : Byte) (s : State) : Host.Outcome State Fault Refusal :=
  match stOfCode s.st with
  | some .sync => pushSync b s
  | some .header => pushHeader b s
  | some .command => pushCommand b s
  | some .length => pushLength b s
  | some .data => pushData b s
  | some .crc => pushCrc b s
  | none => .next (raiseFault .illegalState s)

end Sys2Proof.Machine
end

