-- ==== Sys2Proof/Machine/Control.lean ====
section
/-! DEFINITION. The RESET operation (70_reset_and_hazards.md R190). -/

namespace Sys2Proof.Machine

open Sys2Proof

/-- The reset state of 10_state.md R34, with `out`, `fault` and `refused` unchanged (R30, R190). -/
def resetBlock (s : State) : State :=
  setCrcAcc Config.crcInit (setEndIdx 0 (setPlen 0x00 (setCmd 0x00 (setBuf [] (setSt .sync s)))))

/-- RESET (R190): no event is emitted. -/
def execReset (s : State) : Host.Outcome State Fault Refusal := .next (resetBlock s)

end Sys2Proof.Machine
end

