-- ==== Sys2Proof/Machine/Dispatch.lean ====
section
/-! DEFINITION. One arm per operation of the opcode table (30_encoding.md R68, R75). -/

namespace Sys2Proof.Machine

open Sys2Proof

def exec (i : Instr) (s : State) : Host.Outcome State Fault Refusal :=
  match i with
  | .reset => Sys2Proof.Machine.execReset s
  | .push b => Sys2Proof.Machine.execPush b s
  | .tblRead x => Sys2Proof.Machine.execTblRead x s
  | .crcClr => Sys2Proof.Machine.execCrcClr s
  | .crcStep b => Sys2Proof.Machine.execCrcStep b s
  | .validate => Sys2Proof.Machine.execValidate s
  | .encode c => Sys2Proof.Machine.execEncode c s

end Sys2Proof.Machine
end

