-- ==== Sys2Proof/Machine/Issue.lean ====
section
/-! DEFINITION. One issued operation, from its word to its effect, and a run of issued operations
(20_memory.md R48, 60_exceptions.md R177, 70_reset_and_hazards.md R193, R198). -/

namespace Sys2Proof.Machine

open Sys2Proof

/-- One operation word takes its effect: "Decode comes first" (60_exceptions.md R177). A reserved word records
RESERVED_OP and changes no other state (30_encoding.md R70). The operands are already presented. -/
def runWord (w : OpWord) (s : State) : Host.Outcome State Fault Refusal :=
  match decode w with
  | .ok i => exec i s
  | .error _ => .next (refuse .reservedOp s)

/-- The host issues `op`, with `rest` still to issue, and it runs to its end before the next starts (R44, R193). -/
def issue (op : Operation) (rest : List Operation) (s : State) : Host.Outcome State Fault Refusal :=
  runWord op.word (present op rest s)

/-- The next operation of the host takes its effect. With none issued the block waits (70_reset_and_hazards.md R191, R195):
it has no timer that could change anything (60_exceptions.md R182). -/
def issueNext (s : State) : Host.Outcome State Fault Refusal :=
  match s.ops with
  | [] => .next s
  | op :: rest => issue op rest s

/-- A run: a finite sequence of operations applied to one block from a stated start state (R198). What the host has
queued (`ops`) is left alone. -/
def runOps : List Operation → State → Host.Outcome State Fault Refusal
  | [], s => .next s
  | op :: later, s =>
    match issue op s.ops s with
    | .next t => runOps later t
    | .fault r => .fault r
    | .refused r => .refused r

end Sys2Proof.Machine
end

