-- ==== Sys2Proof/Machine/Step.lean ====
section
/-! DEFINITION. One step of the block, and the placing of a word as the next operation. -/

namespace Sys2Proof.Machine

open Sys2Proof

/-- One step: the next operation the host issues takes its effect, or the block waits. -/
def step (s : State) : Host.Outcome State Fault Refusal := issueNext s

/-- `s` with the word of these bits as the very next operation. A number that is no 12-bit word is no operation, and
nothing is placed for it (log entry 9). The block runs no program of its own: this stands for the host issuing one operation (log
entry 1). -/
def State.withFetchWord (s : State) (nbits w : Nat) : State :=
  match tableWord nbits w with
  | some v => placeWord v s
  | none => s

end Sys2Proof.Machine
end

