-- ==== Sys2Proof/Machine/Assembly.lean ====
section
/-! DEFINITION. The written form of operations (30_encoding.md R72) and the pseudo-operations (R73). -/

namespace Sys2Proof.Machine

open Sys2Proof

/-- What the host issues for an instruction: its word, with `port` on the frame port (R67). -/
def operationOf (i : Instr) (port : List Byte) : Operation := { word := encode i, port := port }

/-- `PUSHS` and `CRC8` expand to real operations, one for one (R73). -/
def expandPseudo : PseudoOp → List Instr
  | .pushs bytes => bytes.map .push
  | .crc8 bytes => .crcClr :: bytes.map .crcStep

/-- The operations the host issues for a pseudo-operation; none of them reads the frame port. -/
def pseudoOperations (p : PseudoOp) : List Operation := (expandPseudo p).map (operationOf · [])

/-- One hex digit, upper case. -/
def hexDigit (n : Nat) : Char :=
  if n < 10 then Char.ofNat ('0'.toNat + n) else Char.ofNat ('A'.toNat + (n - 10))

/-- A byte as two hex digits. -/
def hexByte (b : Byte) : List Char := [hexDigit (b.toNat / 16), hexDigit (b.toNat % 16)]

/-- A `d` byte, written `0xNN` (R72). -/
def hexOperand (b : Byte) : List Char := '0' :: 'x' :: hexByte b

/-- The bytes of a sequence, separated by single spaces. -/
def hexBytes : List Byte → List Char
  | [] => []
  | [b] => hexByte b
  | b :: rest => hexByte b ++ ' ' :: hexBytes rest

/-- A frame-port sequence, written `[b0 b1 ...]` (R72). -/
def hexSequence (f : List Byte) : List Char := '[' :: hexBytes f ++ [']']

/-- The word beside a line, three hex digits after `0x` (R72). -/
def hexWord (w : OpWord) : List Char :=
  ['0', 'x', hexDigit (w.toNat / 256), hexDigit (w.toNat / 16 % 16), hexDigit (w.toNat % 16)]

/-- One line of assembly: `MNEMONIC operand` (R72). -/
def renderOperation (port : List Byte) : Instr → List Char
  | .reset => "RESET".toList
  | .push b => "PUSH ".toList ++ hexOperand b
  | .tblRead i => "TBL_READ ".toList ++ hexOperand i
  | .crcClr => "CRC_CLR".toList
  | .crcStep b => "CRC_STEP ".toList ++ hexOperand b
  | .validate => "VALIDATE ".toList ++ hexSequence port
  | .encode c => "ENCODE ".toList ++ hexOperand c ++ ", ".toList ++ hexSequence port

end Sys2Proof.Machine
end

