-- ==== Sys2Proof/Machine/Blocks.lean ====
section
/-! DEFINITION. Several instances of the block (20_memory.md R53, 60_exceptions.md R185): each has its own state, and they share
the read-only table, which is no state. -/

namespace Sys2Proof.Machine

open Sys2Proof

/-- `n` blocks as they are at power-on (60_exceptions.md R185). -/
def blocksAtPowerOn (n : Nat) : Vector State n := Vector.replicate n State.reset

/-- One step of block `k` among `n` independent blocks. -/
def stepBlock {n : Nat} (k : Fin n) (blocks : Vector State n) : Host.Outcome (Vector State n) Fault Refusal :=
  match step blocks[k] with
  | .next t => .next (blocks.set k t)
  | .fault r => .fault r
  | .refused r => .refused r

end Sys2Proof.Machine
end

