-- ==== Sys2Proof/Safety.lean ====
section
/-! DEFINITION. What a good state is (70_reset_and_hazards.md R198), the invariant of every reachable state (10_state.md
R31), and the views of the state that the independence statements compare (R23 to R25, R111, R155). -/

namespace Sys2Proof.Machine

open Sys2Proof

/-- `k` steps of the block, stopping at the first fault or refusal. -/
def runSteps : Nat → State → Host.Outcome State Fault Refusal
  | 0, s => .next s
  | k + 1, s =>
    match step s with
    | .next t => runSteps k t
    | .fault r => .fault r
    | .refused r => .refused r

/-- A run is good when `fault` and `refused` are both none (R198; R175 and R176 say why). -/
def goodState (s : State) : Bool := s.fault.isNone && s.refused.isNone

/-- The invariant of R31, one row per value of `st`; the codes 6 and 7 have none. The contents of `buf[0..3]` in the
LENGTH, DATA and CRC rows are R31's with those of R23 (`cmd == buf[2]`), R24 (`plen == buf[3]`) and
41_framecodec.md R131 (`f[0] = 0xAA`, `f[1] = 0x55`). -/
def invariantHolds (s : State) : Bool :=
  match stOfCode s.st with
  | some .sync => s.buf = []
  | some .header => s.buf = [0xAA]
  | some .command => s.buf = [0xAA, 0x55]
  | some .length => s.buf = [0xAA, 0x55, s.cmd]
  | some .data =>
    s.buf.take 4 = [0xAA, 0x55, s.cmd, s.plen] && 4 ≤ s.buf.length && s.buf.length ≤ s.endIdx.toNat &&
      s.endIdx.toNat = 3 + s.plen.toNat && 1 ≤ s.plen.toNat
  | some .crc => s.buf.take 4 = [0xAA, 0x55, s.cmd, s.plen] && s.buf.length = 4 + s.plen.toNat
  | none => false

/-- The two states agree on the assembler's fields, `st`, `buf`, `cmd`, `plen` and `end_idx` (R20, R155). -/
def sameAssembler (s t : State) : Prop :=
  s.st = t.st ∧ s.buf = t.buf ∧ s.cmd = t.cmd ∧ s.plen = t.plen ∧ s.endIdx = t.endIdx

/-- The two states agree on everything but `cmd`, `plen` and, outside DATA, `end_idx`: the fields whose value no
operation can make the host see (R23, R24, R25). -/
def sameObservable (s t : State) : Prop :=
  s.st = t.st ∧ s.buf = t.buf ∧ s.crcAcc = t.crcAcc ∧ s.out = t.out ∧ s.fault = t.fault ∧ s.refused = t.refused ∧
    s.conv = t.conv ∧ s.port = t.port ∧ s.ops = t.ops ∧ (s.st = stCode .data → s.endIdx = t.endIdx)

/-- The operation is a PUSH or a RESET, the two that write the assembler (R20, R155). -/
def writesAssembler (op : Operation) : Bool :=
  match decode op.word with
  | .ok (.push _) => true
  | .ok .reset => true
  | .ok (.tblRead _) => false
  | .ok .crcClr => false
  | .ok (.crcStep _) => false
  | .ok .validate => false
  | .ok (.encode _) => false
  | .error _ => false

/-- The event is one that PUSH emits (R29). -/
def isFrameEvent : Event → Bool
  | .dispatch _ _ _ => true
  | .crcError _ => true
  | .table _ => false
  | .crc _ => false
  | .valid _ => false
  | .frame _ => false

/-- The operations that push these bytes, in order, with nothing on the frame port. -/
def pushOperations (bytes : List Byte) : List Operation := pseudoOperations (.pushs bytes)

end Sys2Proof.Machine
end

