-- ==== Sys2Proof/Certificates/Slice0/Obligations.lean ====
section
/-! DEFINITION. The statements for the provers. Each docstring names the rules of spec/ that the statement formalises.
An equation `exec i s = .next { s with … }` says what the operation writes and, by the fields it does not name, its
whole frame. `port` and `ops` are the model's own fields (log entries 1 and 2). -/

open Sys2Proof Sys2Proof.Machine

/-! ### Words -/

/-- R68, every row of the opcode map, the reserved rows among them; `d` is used unchanged (R69). -/
def Obligations.OpcodeMapDecodesEveryRow : Prop :=
  decode 0x000 = .ok .reset ∧
  (∀ d : Byte, decode (0x1#4 ++ d) = .ok (.push d)) ∧
  (∀ d : Byte, decode (0x2#4 ++ d) = .ok (.tblRead d)) ∧
  decode 0x300 = .ok .crcClr ∧
  (∀ d : Byte, decode (0x4#4 ++ d) = .ok (.crcStep d)) ∧
  decode 0x500 = .ok .validate ∧
  (∀ d : Byte, decode (0x6#4 ++ d) = .ok (.encode d)) ∧
  (∀ (op : BitVec 4) (d : Byte), 7 ≤ op.toNat → decode (op ++ d) = .error (.reservedOpcode op)) ∧
  (∀ (op : BitVec 4) (d : Byte), op = 0x0 ∨ op = 0x3 ∨ op = 0x5 → d ≠ 0 →
    decode (op ++ d) = .error (.nonzeroOperand op d))

/-- Words the spec writes beside their operations (R72 and the programs of 95_test_vectors.md). -/
def Obligations.PrintedWordsDecode : Prop :=
  decode 0x000 = .ok .reset ∧ decode 0x1AA = .ok (.push 0xAA) ∧ decode 0x2FF = .ok (.tblRead 0xFF) ∧
  decode 0x300 = .ok .crcClr ∧ decode 0x431 = .ok (.crcStep 0x31) ∧ decode 0x500 = .ok .validate ∧
  decode 0x601 = .ok (.encode 0x01) ∧ decode 0x700 = .error (.reservedOpcode 0x7) ∧
  decode 0xF12 = .error (.reservedOpcode 0xF) ∧ decode 0x001 = .error (.nonzeroOperand 0x0 0x01) ∧
  decode 0x3FF = .error (.nonzeroOperand 0x3 0xFF) ∧ decode 0x501 = .error (.nonzeroOperand 0x5 0x01)

/-- Decode and encode agree in both directions: every instruction's word decodes to it, and a word that decodes to
an instruction is that instruction's one word (R67, R68). -/
def Obligations.DecodeInvertsEncode : Prop :=
  (∀ i : Instr, i.wellFormed = true → decode (encode i) = .ok i) ∧
  (∀ (w : OpWord) (i : Instr), decode w = .ok i → encode i = w)

/-- R75: every 12-bit word is either one of the seven operations or a reserved word under R70, and never both. -/
def Obligations.EveryWordIsAnOperationOrReserved : Prop :=
  ∀ w : OpWord,
    (wellFormedWord w = true ∧ ∃ i, decode w = .ok i ∧ encode i = w) ∨
    (wellFormedWord w = false ∧ ∃ e, decode w = .error e)

/-! ### Steps and the host's operations -/

/-- A step runs the decoded instruction: the next operation the host issues leaves the host's list, its sequence
stands on the frame port, and `exec` gives the outcome (R44, R67, R177). -/
def Obligations.StepRunsTheDecodedOperation : Prop :=
  ∀ (s : State) (op : Operation) (rest : List Operation) (i : Instr),
    s.ops = op :: rest → decode op.word = .ok i → i.wellFormed = true →
    step s = exec i { s with port := op.port, ops := rest }

/-- R70: a reserved word records RESERVED_OP, keeping an earlier refusal (R176), and changes no other state.
`port` and `ops`, the host's side, move on as at every step. -/
def Obligations.ReservedWordIsRefused : Prop :=
  ∀ (s : State) (op : Operation) (rest : List Operation),
    s.ops = op :: rest →
    (7 ≤ op.word.toNat / 256 ∨
      ((op.word.toNat / 256 = 0 ∨ op.word.toNat / 256 = 3 ∨ op.word.toNat / 256 = 5) ∧ op.word.toNat % 256 ≠ 0)) →
    step s = .next { s with port := op.port, ops := rest, refused := some (s.refused.getD .reservedOp) }

/-- With no operation issued the block waits, and nothing it holds changes, however long that takes: it has no
timeout (R182, R191, R195). -/
def Obligations.WaitingChangesNothing : Prop :=
  ∀ (s : State) (k : Nat), s.ops = [] → runSteps k s = .next s

/-- Steps take the host's operations in issue order, each seeing every effect of those before it: stepping through
the first operations of the host's list is running them one after another (R48, R193, R198). -/
def Obligations.StepsTakeOperationsInIssueOrder : Prop :=
  ∀ (issued rest : List Operation) (s : State), s.ops = issued ++ rest →
    runSteps issued.length s = runOps issued { s with ops := rest }

/-- A run may be cut anywhere, and what the later operations do depends only on the block's own state that the earlier
ones leave (R20, R40, R44, R48, R194): neither on the sequence an earlier operation had on the frame port nor on what the host
has still to issue, and no operation changes the latter (log entries 1 and 2). -/
def Obligations.RunsCompose : Prop :=
  ∀ (first later : List Operation) (s t : State) (port : List Byte) (queue : List Operation),
    runOps first s = .next t → later ≠ [] →
    t.ops = s.ops ∧
    (∀ u, runOps (first ++ later) s = .next u →
      u.ops = s.ops ∧ runOps later { t with port := port, ops := queue } = .next { u with ops := queue }) ∧
    (∀ r, runOps (first ++ later) s = .fault r → runOps later { t with port := port, ops := queue } = .fault r) ∧
    (∀ r, runOps (first ++ later) s ≠ .refused r)

/-- R53: a step of one block leaves every other block as it was, and its own effect is that of the block alone. -/
def Obligations.BlocksAreIndependent : Prop :=
  ∀ (n : Nat) (k : Fin n) (blocks : Vector State n),
    (∀ t, step blocks[k] = .next t →
      ∃ after, stepBlock k blocks = .next after ∧ after[k] = t ∧ ∀ j : Fin n, j ≠ k → after[j] = blocks[j]) ∧
    (∀ after, stepBlock k blocks = .next after →
      step blocks[k] = .next after[k] ∧ ∀ j : Fin n, j ≠ k → after[j] = blocks[j])

/-! ### Reset -/

/-- R34, R191: the power-on state. The default of `CRC_TABLE_CONV` and the empty host side are the model's
(log entries 1, 2 and 3). -/
def Obligations.PowerOnValues : Prop :=
  State.reset.st = 0 ∧ State.reset.buf = [] ∧ State.reset.cmd = 0x00 ∧ State.reset.plen = 0x00 ∧
  State.reset.endIdx = 0 ∧ State.reset.crcAcc = 0x00 ∧ State.reset.out = [] ∧ State.reset.fault = none ∧
  State.reset.refused = none ∧ State.reset.conv = .msbFirst ∧ State.reset.port = [] ∧ State.reset.ops = []

/-- R190, R34, R30, R197: RESET, its word, its effect from every state (a partial frame is dropped with no event and
the marks stay), and its refused words. R190's corner case "a RESET in SYNC with crc_acc = 0 changes nothing" is stated for
what its pseudocode leaves true of it: nothing but `cmd`, `plen` and `end_idx` can change (log entry 12). -/
def Obligations.ResetOperation : Prop :=
  encode .reset = 0x000 ∧
  (∀ d : Byte, d ≠ 0 → decode (0x0#4 ++ d) = .error (.nonzeroOperand 0x0 d)) ∧
  (∀ s : State, exec .reset s =
    .next { s with st := 0, buf := [], cmd := 0x00, plen := 0x00, endIdx := 0, crcAcc := 0x00 }) ∧
  (∀ s : State, s.st = 0 → s.buf = [] → s.crcAcc = 0x00 →
    exec .reset s = .next { s with cmd := 0x00, plen := 0x00, endIdx := 0 })

/-- R36, R192: after a RESET the block is as it is at power-on, but for its trace, its marks, the parameter fixed for it
and the host's side: no partial frame of an earlier connection is left. -/
def Obligations.ResetStartsAFreshConnection : Prop :=
  ∀ s : State, exec .reset s =
    .next { State.reset with
      out := s.out, fault := s.fault, refused := s.refused, conv := s.conv, port := s.port, ops := s.ops }

/-! ### Table and CRC engine -/

/-- R101: entry `T[i]` is `gen(i)`, the eight steps of the generator written out, for each value of the parameter. -/
def Obligations.TableIsTheGeneratorsOutput : Prop :=
  (∀ i : Byte, tableRead .msbFirst i =
    (fun c : Byte => if c.getLsbD 7 then (c <<< 1) ^^^ 0xD5 else c <<< 1)^[8] i) ∧
  (∀ i : Byte, tableRead .reflected i =
    (fun c : Byte => if c.getLsbD 0 then (c >>> 1) ^^^ 0xAB else c >>> 1)^[8] i)

/-- The spot values and the check string of R102 and R103. -/
def Obligations.TableSpotValues : Prop :=
  tableRead .msbFirst 0x00 = 0x00 ∧ tableRead .msbFirst 0x01 = 0xD5 ∧ tableRead .msbFirst 0x02 = 0x7F ∧
  tableRead .msbFirst 0x80 = 0xEF ∧ tableRead .msbFirst 0xAA = 0x1D ∧ tableRead .msbFirst 0x55 = 0xE4 ∧
  tableRead .msbFirst 0xFF = 0xF9 ∧ tableRead .reflected 0x01 = 0xF7 ∧ tableRead .reflected 0x80 = 0xAB ∧
  crc8 .msbFirst [0x31, 0x32, 0x33, 0x34, 0x35, 0x36, 0x37, 0x38, 0x39] = 0xBC ∧
  crc8 .reflected [0x31, 0x32, 0x33, 0x34, 0x35, 0x36, 0x37, 0x38, 0x39] = 0x7C

/-- R104: `T[0] = 0`, `T` is linear over exclusive OR, and `T` is a permutation of the bytes, for both tables. -/
def Obligations.TableIsALinearPermutation : Prop :=
  ∀ conv : TableConv,
    tableRead conv 0x00 = 0x00 ∧
    (∀ a b : Byte, tableRead conv (a ^^^ b) = tableRead conv a ^^^ tableRead conv b) ∧
    Function.Bijective (tableRead conv)

/-- R105: `crc8` by its recursion on the last byte, the empty input, one zero byte, and leading zero bytes. -/
def Obligations.CrcIsATableFold : Prop :=
  ∀ conv : TableConv,
    crc8 conv [] = 0x00 ∧ crc8 conv [0x00] = 0x00 ∧
    (∀ (s : List Byte) (b : Byte), crc8 conv (s ++ [b]) = tableRead conv (crc8 conv s ^^^ b)) ∧
    (∀ (k : Nat) (s : List Byte), crc8 conv (List.replicate k 0x00 ++ s) = crc8 conv s)

/-- R106: under `MSB_FIRST`, `crc8` equals the bit-serial form, written out here. -/
def Obligations.CrcEqualsItsBitSerialForm : Prop :=
  ∀ s : List Byte,
    crc8 .msbFirst s =
      s.foldl (fun c b => (fun c : Byte => if c.getLsbD 7 then (c <<< 1) ^^^ 0xD5 else c <<< 1)^[8] (c ^^^ b)) 0x00 ∧
    crc8 .msbFirst s = crc8Bitwise s

/-- R107: the self-check, and the CRC compare of R120 as "the CRC of all bytes from 2 on is 0". -/
def Obligations.CrcSelfCheck : Prop :=
  ∀ conv : TableConv,
    (∀ s : List Byte, crc8 conv (s ++ [crc8 conv s]) = 0x00) ∧
    (∀ f : List Byte, 5 ≤ f.length →
      ((∃ c l p, validateFrame conv f = .ok c l p) ↔ crc8 conv (f.drop 2) = 0x00))

/-- `crc8` is linear: the CRC of the byte-wise exclusive OR of two sequences of one length is the exclusive OR of their
CRCs (from R104 and R105). -/
def Obligations.CrcIsLinear : Prop :=
  ∀ (conv : TableConv) (s t : List Byte), s.length = t.length →
    crc8 conv (List.zipWith (· ^^^ ·) s t) = crc8 conv s ^^^ crc8 conv t

/-- R108: TBL_READ, its words, its effect, and its corner cases and example under the default table. -/
def Obligations.TableReadOperation : Prop :=
  (∀ i : Byte, encode (.tblRead i) = 0x2#4 ++ i) ∧
  (∀ (i : Byte) (s : State), exec (.tblRead i) s = .next { s with out := s.out ++ [.table (tableRead s.conv i)] }) ∧
  (∀ s : State, exec (.tblRead 0x00) s = .next { s with out := s.out ++ [.table 0x00] }) ∧
  (∀ s : State, s.conv = .msbFirst →
    exec (.tblRead 0xFF) s = .next { s with out := s.out ++ [.table 0xF9] } ∧
    exec (.tblRead 0x01) s = .next { s with out := s.out ++ [.table 0xD5] })

/-- R109: CRC_CLR, its word, its refused words and its effect. -/
def Obligations.CrcClearOperation : Prop :=
  encode .crcClr = 0x300 ∧
  (∀ d : Byte, d ≠ 0 → decode (0x3#4 ++ d) = .error (.nonzeroOperand 0x3 d)) ∧
  (∀ s : State, exec .crcClr s = .next { s with crcAcc := 0x00, out := s.out ++ [.crc 0x00] })

/-- R110: CRC_STEP, its words, its effect, its corner cases, its example, and what CRC_CLR and then a CRC_STEP for each
byte of a sequence leave. -/
def Obligations.CrcStepOperation : Prop :=
  (∀ b : Byte, encode (.crcStep b) = 0x4#4 ++ b) ∧
  (∀ (b : Byte) (s : State), exec (.crcStep b) s =
    .next { s with
      crcAcc := tableRead s.conv (s.crcAcc ^^^ b), out := s.out ++ [.crc (tableRead s.conv (s.crcAcc ^^^ b))] }) ∧
  (∀ s : State, exec (.crcStep s.crcAcc) s = .next { s with crcAcc := 0x00, out := s.out ++ [.crc 0x00] }) ∧
  (∀ s : State, s.crcAcc = 0x00 → s.conv = .msbFirst →
    exec (.crcStep 0x01) s = .next { s with crcAcc := 0xD5, out := s.out ++ [.crc 0xD5] }) ∧
  (∀ (bytes : List Byte) (s : State), ∃ events,
    runOps (operationOf .crcClr [] :: bytes.map (fun b => operationOf (.crcStep b) [])) s =
      .next { s with crcAcc := crc8 s.conv bytes, out := s.out ++ events, port := [] })

/-- R73, R109, R110: the two pseudo-operations expand one for one, in order, and `CRC8` leaves the CRC of its bytes in
`crc_acc`, with the CRC of each longer run of its first bytes in the trace. R73 writes the shorthands with at least one byte:
what they are with none is the model's reading (log entry 17). -/
def Obligations.PseudoOperationsExpand : Prop :=
  (∀ bytes : List Byte, expandPseudo (.pushs bytes) = bytes.map Instr.push) ∧
  (∀ bytes : List Byte, expandPseudo (.crc8 bytes) = .crcClr :: bytes.map Instr.crcStep) ∧
  (∀ (bytes : List Byte) (s : State),
    runOps (pseudoOperations (.crc8 bytes)) s =
      .next { s with
        crcAcc := crc8 s.conv bytes
        out := s.out ++ (List.range (bytes.length + 1)).map (fun k => .crc (crc8 s.conv (bytes.take k)))
        port := [] })

/-! ### Frame codec -/

/-- R120, R121, R123: `validate` by cases on its input. A frame of 5 bytes or more is split into its two first bytes,
its command, length and payload bytes and its last byte; the two first bytes and the length byte are not tested. -/
def Obligations.ValidatorComparesTheCrc : Prop :=
  ∀ conv : TableConv,
    (∀ f : List Byte, f.length < 5 → validateFrame conv f = .err .errShort) ∧
    (∀ (x y c l k : Byte) (p : List Byte),
      validateFrame conv ([x, y, c, l] ++ p ++ [k]) =
        if crc8 conv ([c, l] ++ p) = k then .ok c l p else .err .errCrc)

/-- R124: VALIDATE, its word, its refused words, its effect, its corner cases and its example (the example under the
default table). -/
def Obligations.ValidateOperation : Prop :=
  encode .validate = 0x500 ∧
  (∀ d : Byte, d ≠ 0 → decode (0x5#4 ++ d) = .error (.nonzeroOperand 0x5 d)) ∧
  (∀ s : State, exec .validate s = .next { s with out := s.out ++ [.valid (validateFrame s.conv s.port)] }) ∧
  (∀ s : State, s.port.length ≤ 4 → exec .validate s = .next { s with out := s.out ++ [.valid (.err .errShort)] }) ∧
  (∀ s : State, s.port = [0xAA, 0x55, 0x00, 0x00, 0x00] →
    exec .validate s = .next { s with out := s.out ++ [.valid (.ok 0x00 0x00 [])] }) ∧
  (∀ s : State, s.conv = .msbFirst → s.port = [0xAA, 0x55, 0x01, 0x00, 0x0B] →
    exec .validate s = .next { s with out := s.out ++ [.valid (.ok 0x01 0x00 [])] }) ∧
  (∀ s : State, s.conv = .msbFirst → s.port = [0xAA, 0x55, 0x01, 0x00, 0x0C] →
    exec .validate s = .next { s with out := s.out ++ [.valid (.err .errCrc)] })

/-- R130: no input makes `validate` accept a frame whose CRC compare fails, and what it accepts is read from the
frame's own bytes. -/
def Obligations.NoBypassOfTheCrc : Prop :=
  ∀ (conv : TableConv) (f : List Byte) (c l : Byte) (p : List Byte), validateFrame conv f = .ok c l p →
    ∃ x y k, f = [x, y, c, l] ++ p ++ [k] ∧ crc8 conv ([c, l] ++ p) = k

/-- R60, R61, R62, R125: the frame that `encode(c, p)` builds, field by field at its byte offsets. -/
def Obligations.BuiltFrameHasTheFrameFormat : Prop :=
  ∀ (conv : TableConv) (c : Byte) (p : List Byte), p.length ≤ 255 →
    ∃ f, buildFrame conv c p = some f ∧
      f.length = 5 + p.length ∧
      f[0]? = some 0xAA ∧
      f[1]? = some 0x55 ∧
      f[2]? = some c ∧
      f[3]?.map BitVec.toNat = some p.length ∧
      slice f 4 (3 + p.length) = p ∧
      f[4 + p.length]? = some (crc8 conv (slice f 2 (3 + p.length)))

/-- R126: a payload of more than 255 bytes, and no other, has no frame; ENCODE then raises FAULT_PAYLOAD_TOO_LONG, keeping
an earlier fault (R175), and does nothing else; and no frame is ever built with a wrapped length byte. -/
def Obligations.OversizedPayloadHasNoFrame : Prop :=
  (∀ (conv : TableConv) (c : Byte) (p : List Byte), buildFrame conv c p = none ↔ 255 < p.length) ∧
  (∀ (c : Byte) (s : State), 255 < s.port.length →
    exec (.encode c) s = .next { s with fault := some (s.fault.getD .payloadTooLong) }) ∧
  (∀ (conv : TableConv) (c : Byte) (p f : List Byte), buildFrame conv c p = some f →
    f[3]?.map BitVec.toNat = some p.length) ∧
  (∀ (c : Byte) (s t : State) (f : List Byte), exec (.encode c) s = .next t → t.out = s.out ++ [.frame f] →
    buildFrame s.conv c s.port = some f)

/-- R127, R126, R74: ENCODE, its words, its effect on both sides of the payload bound, and its corner cases and example.
The mark keeps an earlier fault (R175). -/
def Obligations.EncodeOperation : Prop :=
  (∀ c : Byte, encode (.encode c) = 0x6#4 ++ c) ∧
  (∀ (c : Byte) (s : State), s.port.length ≤ 255 →
    exec (.encode c) s =
      .next { s with
        out := s.out ++ [.frame ([0xAA, 0x55, c, BitVec.ofNat 8 s.port.length] ++ s.port ++
          [crc8 s.conv ([c, BitVec.ofNat 8 s.port.length] ++ s.port)])] }) ∧
  (∀ (c : Byte) (s : State), 255 < s.port.length →
    exec (.encode c) s = .next { s with fault := some (s.fault.getD .payloadTooLong) }) ∧
  (∀ (c : Byte) (s : State), s.port = [] →
    exec (.encode c) s =
      .next { s with out := s.out ++ [.frame [0xAA, 0x55, c, 0x00, tableRead s.conv (tableRead s.conv c)]] }) ∧
  (∀ s : State, s.conv = .msbFirst → s.port = [0x01, 0x00, 0x02, 0x16, 0xE9] →
    exec (.encode 0x01) s =
      .next { s with out := s.out ++ [.frame [0xAA, 0x55, 0x01, 0x05, 0x01, 0x00, 0x02, 0x16, 0xE9, 0xD6]] })

/-- R128: the round trip. -/
def Obligations.BuiltFrameValidates : Prop :=
  ∀ (conv : TableConv) (c : Byte) (p : List Byte), p.length ≤ 255 →
    ∃ f, buildFrame conv c p = some f ∧ ∃ l : Byte, l.toNat = p.length ∧ validateFrame conv f = .ok c l p

/-- R129: in a frame that `validate` accepts, a change of one byte at an index from 2 on makes it ERR_CRC, and a change at
index 0 or 1 is not seen (R123). -/
def Obligations.OneByteErrorsAreDetected : Prop :=
  ∀ (conv : TableConv) (f : List Byte) (c l : Byte) (p : List Byte), validateFrame conv f = .ok c l p →
    (∀ (i : Nat) (b : Byte), 2 ≤ i → i < f.length → f[i]? ≠ some b →
      validateFrame conv (f.set i b) = .err .errCrc) ∧
    (∀ (i : Nat) (b : Byte), i < 2 → validateFrame conv (f.set i b) = .ok c l p)

/-! ### Assembler -/

/-- R141: PUSH in SYNC, from every such state; in one that meets R31, `buf` is already empty. -/
def Obligations.PushInSync : Prop :=
  ∀ (b : Byte) (s : State), s.st = 0 →
    exec (.push b) s = .next (if b = 0xAA then { s with buf := [b], st := 1 } else { s with buf := [], st := 0 }) ∧
    (invariantHolds s = true → s.buf = [])

/-- R142: PUSH in HEADER. The right header byte is appended, at an index BUF has (R46); any other byte, 0xAA among
them, resyncs. -/
def Obligations.PushInHeader : Prop :=
  ∀ (b : Byte) (s : State), s.st = 1 →
    (b = 0x55 → s.buf.length < 260 → exec (.push b) s = .next { s with buf := s.buf ++ [b], st := 2 }) ∧
    (b ≠ 0x55 → exec (.push b) s = .next { s with buf := [], st := 0 })

/-- R143: PUSH in COMMAND takes every byte, at an index BUF has (R46). -/
def Obligations.PushInCommand : Prop :=
  ∀ (b : Byte) (s : State), s.st = 2 → s.buf.length < 260 →
    exec (.push b) s = .next { s with buf := s.buf ++ [b], cmd := b, st := 3 }

/-- R144: PUSH in LENGTH. `n + b` is the completion index, and no bit of the sum is lost in the 9 bits of `end_idx`
while `n` is at most 256; in a state that meets R31, `n` is 3. -/
def Obligations.PushInLength : Prop :=
  ∀ (b : Byte) (s : State), s.st = 3 → s.buf.length ≤ 256 →
    (b = 0 → exec (.push b) s = .next { s with buf := s.buf ++ [b], plen := b, st := 5 }) ∧
    (b ≠ 0 → ∃ e : EndIdx, e.toNat = s.buf.length + b.toNat ∧
      exec (.push b) s = .next { s with buf := s.buf ++ [b], plen := b, endIdx := e, st := 4 }) ∧
    (invariantHolds s = true → s.buf.length = 3)

/-- R145: PUSH in DATA, at an index BUF has (R46). The test reads the index of the byte just taken; in a state that meets
R31 that index is from 4 to `end_idx`. -/
def Obligations.PushInData : Prop :=
  ∀ (b : Byte) (s : State), s.st = 4 → s.buf.length < 260 →
    exec (.push b) s =
      .next { s with buf := s.buf ++ [b], st := if s.buf.length = s.endIdx.toNat then 5 else 4 } ∧
    (invariantHolds s = true → 4 ≤ s.buf.length ∧ s.buf.length ≤ s.endIdx.toNat)

/-- R146: PUSH in CRC, at an index BUF has (R46): validate, dispatch or drop, and resync in both cases. In a state that
meets R31 the error is ERR_CRC, and a dispatched frame carries `cmd` and `plen`. -/
def Obligations.PushInCrc : Prop :=
  ∀ (b : Byte) (s : State), s.st = 5 → s.buf.length < 260 →
    (∀ c l p, validateFrame s.conv (s.buf ++ [b]) = .ok c l p →
      exec (.push b) s = .next { s with buf := [], st := 0, out := s.out ++ [.dispatch c l p] }) ∧
    (∀ r, validateFrame s.conv (s.buf ++ [b]) = .err r →
      exec (.push b) s = .next { s with buf := [], st := 0, out := s.out ++ [.crcError r] }) ∧
    (invariantHolds s = true → ∀ r, validateFrame s.conv (s.buf ++ [b]) = .err r → r = .errCrc) ∧
    (invariantHolds s = true → ∀ c l p, validateFrame s.conv (s.buf ++ [b]) = .ok c l p → c = s.cmd ∧ l = s.plen)

/-- R147: PUSH with `st` 6 or 7 raises FAULT_ILLEGAL_STATE, keeping an earlier fault (R175), and changes nothing else. No
state that meets R31 has these codes. -/
def Obligations.PushInAnIllegalState : Prop :=
  ∀ (b : Byte) (s : State), s.st = 6 ∨ s.st = 7 →
    exec (.push b) s = .next { s with fault := some (s.fault.getD .illegalState) } ∧ invariantHolds s = false

/-- PUSH completes in every state whose buffer has room, and writes nothing but the assembler's fields, the trace and,
in an illegal state, the fault mark (R140, R45, R111). -/
def Obligations.PushCompletes : Prop :=
  ∀ (b : Byte) (s : State), s.buf.length < 260 →
    encode (.push b) = 0x1#4 ++ b ∧
    ∃ t, exec (.push b) s = .next t ∧ t.buf.length ≤ s.buf.length + 1 ∧ t.crcAcc = s.crcAcc ∧
      t.refused = s.refused ∧ t.conv = s.conv ∧ t.port = s.port ∧ t.ops = s.ops ∧
      (s.st.toNat < 6 → t.fault = s.fault)

/-- The model's own stop (log entry 6), at an address the spec says does not exist: BUF has no index above 259 (R40, R46).
A PUSH that would append there stops; one that appends nothing does not. -/
def Obligations.PushPastTheBufferStops : Prop :=
  ∀ (b : Byte) (s : State), 260 ≤ s.buf.length →
    ((s.st = 1 ∧ b = 0x55) ∨ s.st = 2 ∨ s.st = 3 ∨ s.st = 4 ∨ s.st = 5 →
      exec (.push b) s = .fault .bufIndexOutOfRange) ∧
    (¬ ((s.st = 1 ∧ b = 0x55) ∨ s.st = 2 ∨ s.st = 3 ∨ s.st = 4 ∨ s.st = 5) → ∃ t, exec (.push b) s = .next t)

/-- R148: a PUSH emits one event in the CRC arm, a DISPATCH or a CRC_ERROR, and none in any other arm. -/
def Obligations.PushEmitsAtMostOneEvent : Prop :=
  ∀ (b : Byte) (s t : State), exec (.push b) s = .next t →
    (s.st = 5 → ∃ e, isFrameEvent e = true ∧ t.out = s.out ++ [e]) ∧
    (s.st ≠ 5 → t.out = s.out)

/-- R131: what the CRC arm hands to `validate`, and that only OK or ERR_CRC comes back. -/
def Obligations.AssembledFramesAreWellShaped : Prop :=
  ∀ (s : State) (b : Byte), invariantHolds s = true → s.st = 5 →
    (s.buf ++ [b]).length = 5 + s.plen.toNat ∧
    (∃ p : List Byte, p.length = s.plen.toNat ∧ s.buf ++ [b] = [0xAA, 0x55, s.cmd, s.plen] ++ p ++ [b] ∧
      (validateFrame s.conv (s.buf ++ [b]) = .ok s.cmd s.plen p ∨
        validateFrame s.conv (s.buf ++ [b]) = .err .errCrc))

/-- R149: from SYNC, pushing the bytes of `encode(c, p)` emits exactly one event, `DISPATCH(c, |p|, p)`, on the last byte,
and returns to SYNC with an empty buffer; every field the frame leaves is given. A stray sync byte, a wrong header byte
and discarded bytes before the frame leave exactly the same event. -/
def Obligations.BuiltFrameIsDispatched : Prop :=
  ∀ (s : State) (c : Byte) (p : List Byte), s.st = 0 → p.length ≤ 255 →
    ∃ f, buildFrame s.conv c p = some f ∧
    runOps (pushOperations f) s =
      .next { s with
        st := 0, buf := [], cmd := c, plen := BitVec.ofNat 8 p.length
        endIdx := if p = [] then s.endIdx else BitVec.ofNat 9 (3 + p.length)
        out := s.out ++ [.dispatch c (BitVec.ofNat 8 p.length) p]
        port := [] } ∧
    (∀ k < f.length, ∃ u, runOps (pushOperations (f.take k)) s = .next u ∧ u.out = s.out) ∧
    (∀ (wrong : Byte) (lost : List Byte), wrong ≠ 0x55 → 0xAA ∉ lost →
      ∃ t, runOps (pushOperations ([0xAA, wrong] ++ lost ++ f)) s = .next t ∧
        t.out = s.out ++ [.dispatch c (BitVec.ofNat 8 p.length) p] ∧ t.st = 0 ∧ t.buf = [])

/-- R151, R152: after the length byte `l`, the next `l + 1` bytes are payload and CRC, whatever their values: one event
results, and the assembler is back in SYNC. -/
def Obligations.CaptureIsBoundedByTheLengthByte : Prop :=
  ∀ (s : State) (l k : Byte) (body : List Byte), invariantHolds s = true → s.st = 3 → body.length = l.toNat →
    runOps (pushOperations ([l] ++ body ++ [k])) s =
      .next { s with
        st := 0, buf := [], plen := l
        endIdx := if l = 0 then s.endIdx else BitVec.ofNat 9 (3 + l.toNat)
        out := s.out ++ [if crc8 s.conv ([s.cmd, l] ++ body) = k then .dispatch s.cmd l body else .crcError .errCrc]
        port := [] }

/-- R152, first half: while fewer payload bytes than the length byte says have come, the assembler stays in DATA and no
event results; there is no timeout that would end the capture (R182, R195). -/
def Obligations.PartialFramePersists : Prop :=
  ∀ (s : State) (l : Byte) (body : List Byte), invariantHolds s = true → s.st = 3 → body.length < l.toNat →
    runOps (pushOperations ([l] ++ body)) s =
      .next { s with
        st := 4, buf := s.buf ++ [l] ++ body, plen := l, endIdx := BitVec.ofNat 9 (3 + l.toNat), port := [] }

/-- R150, R196: a stray 0xAA makes the assembler lose what follows up to the next 0xAA. A wrong header byte is dropped with the
sync byte before it, even when it is 0xAA, and bytes other than 0xAA are then discarded in SYNC, with no event. -/
def Obligations.StraySyncLosesTheFrame : Prop :=
  ∀ (s : State) (wrong : Byte) (lost : List Byte), s.st = 0 → wrong ≠ 0x55 → 0xAA ∉ lost →
    runOps (pushOperations ([0xAA, wrong] ++ lost)) s = .next { s with st := 0, buf := [], port := [] }

/-! ### Whole-machine statements -/

/-- The power-on state meets the invariant of R31. -/
def Obligations.PowerOnMeetsTheInvariant : Prop := invariantHolds State.reset = true

/-- The invariant of R31 (with R23, R24 and R131's contents) is kept by every step. -/
def Obligations.StepKeepsTheInvariant : Prop :=
  ∀ s t : State, invariantHolds s = true → step s = .next t → invariantHolds t = true

/-- R153: in a state that meets R31 the buffer has room, so a step never stops, and the CRC arm's frame is exactly
`5 + L` bytes. -/
def Obligations.BufferNeverOverflows : Prop :=
  ∀ s : State, invariantHolds s = true →
    s.buf.length ≤ 259 ∧ (∃ t, step s = .next t ∧ t.buf.length ≤ 260) ∧
    (s.st = 5 → ∀ b : Byte, (s.buf ++ [b]).length = 5 + s.plen.toNat)

/-- R31, R153, R175: every run of operations from power-on, with either table, completes, in a state that meets the
invariant, with no fault but ENCODE's. -/
def Obligations.EveryRunFromPowerOnCompletes : Prop :=
  ∀ (conv : TableConv) (ops : List Operation), ∃ t,
    runOps ops { State.reset with conv := conv } = .next t ∧ invariantHolds t = true ∧
    t.st.toNat < 6 ∧ t.buf.length ≤ 259 ∧ t.fault ≠ some .illegalState

/-- R10, R29: each step appends at most one event, and removes none. -/
def Obligations.StepAppendsAtMostOneEvent : Prop :=
  ∀ s t : State, step s = .next t → t.out = s.out ∨ ∃ e, t.out = s.out ++ [e]

/-- R30, R175, R176: no step clears a mark or replaces its first reason. -/
def Obligations.MarksAreSticky : Prop :=
  ∀ s t : State, step s = .next t →
    (∀ r, s.fault = some r → t.fault = some r) ∧ (∀ r, s.refused = some r → t.refused = some r)

/-- R171, R175, R176, R177: a step sets a mark only under a condition of the table, at most one mark, and then writes no
other state (the host's side moves on). -/
def Obligations.MarksHaveTheirConditions : Prop :=
  ∀ (s t : State), step s = .next t → (t.fault ≠ s.fault ∨ t.refused ≠ s.refused) →
    ∃ op rest, s.ops = op :: rest ∧
      ((t = { s with port := op.port, ops := rest, refused := some .reservedOp } ∧ ∃ e, decode op.word = .error e) ∨
       (t = { s with port := op.port, ops := rest, fault := some .payloadTooLong } ∧
          255 < op.port.length ∧ ∃ c, decode op.word = .ok (.encode c)) ∨
       (t = { s with port := op.port, ops := rest, fault := some .illegalState } ∧
          6 ≤ s.st.toNat ∧ ∃ b, decode op.word = .ok (.push b)))

/-- R198, R171, R175 to R177, as one step: from a state that meets R31, the step that takes an operation completes, and its
next state is good exactly when the state was good and the operation is legal, that is, no reserved word and no ENCODE
of more than 255 bytes. -/
def Obligations.StepStaysGoodExactlyOnLegalOperations : Prop :=
  ∀ (s : State) (op : Operation) (rest : List Operation), invariantHolds s = true → s.ops = op :: rest →
    ∃ t, step s = .next t ∧
      (goodState t = true ↔
        goodState s = true ∧ ∃ i, decode op.word = .ok i ∧ ∀ c, i = .encode c → op.port.length ≤ 255)

/-- R28, R112: no step changes the table: `CRC_TABLE_CONV` stays as it was fixed. -/
def Obligations.TableStaysFixed : Prop :=
  ∀ s t : State, step s = .next t → t.conv = s.conv ∧ ∀ i : Byte, tableRead t.conv i = tableRead s.conv i

/-- R45, R111, R155: only PUSH and RESET write the assembler, and only CRC_CLR, CRC_STEP and RESET write `crc_acc`. -/
def Obligations.EachOperationWritesItsOwnUnit : Prop :=
  ∀ (i : Instr) (s t : State), exec i s = .next t →
    ((∀ b, i ≠ .push b) → i ≠ .reset → sameAssembler s t) ∧
    (i ≠ .crcClr → (∀ b, i ≠ .crcStep b) → i ≠ .reset → t.crcAcc = s.crcAcc)

/-- R111, R155: the operations other than PUSH and RESET may be interleaved in any way: leaving them out of a run changes
neither the assembler nor any event PUSH emits. -/
def Obligations.InterleavingLeavesTheFramePathAlone : Prop :=
  ∀ (ops : List Operation) (s : State), invariantHolds s = true →
    ∃ t u, runOps ops s = .next t ∧ runOps (ops.filter writesAssembler) s = .next u ∧
      sameAssembler t u ∧ t.out.filter isFrameEvent = u.out.filter isFrameEvent

/-- R23, R24, R25, R35, R154: the values of `cmd`, `plen` and, outside DATA, `end_idx` change nothing the host can see:
two states that agree on everything else run alike, to the same trace. -/
def Obligations.StaleFieldsAreUnobservable : Prop :=
  ∀ (ops : List Operation) (s t : State), sameObservable s t →
    (∀ s', runOps ops s = .next s' → ∃ t', runOps ops t = .next t' ∧ sameObservable s' t') ∧
    (∀ r, runOps ops s = .fault r → runOps ops t = .fault r) ∧
    (∀ r, runOps ops s ≠ .refused r)

/-- R198, R171: a run from power-on, with either table, is good exactly when none of its operations is a reserved word or an ENCODE of more
than 255 bytes. -/
def Obligations.GoodRunsAreTheLegalOnes : Prop :=
  ∀ (conv : TableConv) (ops : List Operation), ∃ t, runOps ops { State.reset with conv := conv } = .next t ∧
    (goodState t = true ↔
      ∀ op ∈ ops, ∃ i, decode op.word = .ok i ∧ ∀ c, i = .encode c → op.port.length ≤ 255)
end

