-- ==== Sys2Proof/Laws/State.lean ====
section
/-! SUPPORT. One lemma per field of `State` and named update: what the update writes there, or that it leaves the field alone. -/

namespace Sys2Proof.Machine

open Sys2Proof

variable (s : State)

@[simp] theorem setSt_st (a : AsmState) : (setSt a s).st = stCode a := rfl
@[simp] theorem setSt_buf (a : AsmState) : (setSt a s).buf = s.buf := rfl
@[simp] theorem setSt_cmd (a : AsmState) : (setSt a s).cmd = s.cmd := rfl
@[simp] theorem setSt_plen (a : AsmState) : (setSt a s).plen = s.plen := rfl
@[simp] theorem setSt_endIdx (a : AsmState) : (setSt a s).endIdx = s.endIdx := rfl
@[simp] theorem setSt_crcAcc (a : AsmState) : (setSt a s).crcAcc = s.crcAcc := rfl
@[simp] theorem setSt_out (a : AsmState) : (setSt a s).out = s.out := rfl
@[simp] theorem setSt_fault (a : AsmState) : (setSt a s).fault = s.fault := rfl
@[simp] theorem setSt_refused (a : AsmState) : (setSt a s).refused = s.refused := rfl
@[simp] theorem setSt_conv (a : AsmState) : (setSt a s).conv = s.conv := rfl
@[simp] theorem setSt_port (a : AsmState) : (setSt a s).port = s.port := rfl
@[simp] theorem setSt_ops (a : AsmState) : (setSt a s).ops = s.ops := rfl

@[simp] theorem setBuf_st (f : List Byte) : (setBuf f s).st = s.st := rfl
@[simp] theorem setBuf_buf (f : List Byte) : (setBuf f s).buf = f := rfl
@[simp] theorem setBuf_cmd (f : List Byte) : (setBuf f s).cmd = s.cmd := rfl
@[simp] theorem setBuf_plen (f : List Byte) : (setBuf f s).plen = s.plen := rfl
@[simp] theorem setBuf_endIdx (f : List Byte) : (setBuf f s).endIdx = s.endIdx := rfl
@[simp] theorem setBuf_crcAcc (f : List Byte) : (setBuf f s).crcAcc = s.crcAcc := rfl
@[simp] theorem setBuf_out (f : List Byte) : (setBuf f s).out = s.out := rfl
@[simp] theorem setBuf_fault (f : List Byte) : (setBuf f s).fault = s.fault := rfl
@[simp] theorem setBuf_refused (f : List Byte) : (setBuf f s).refused = s.refused := rfl
@[simp] theorem setBuf_conv (f : List Byte) : (setBuf f s).conv = s.conv := rfl
@[simp] theorem setBuf_port (f : List Byte) : (setBuf f s).port = s.port := rfl
@[simp] theorem setBuf_ops (f : List Byte) : (setBuf f s).ops = s.ops := rfl

@[simp] theorem setCmd_st (b : Byte) : (setCmd b s).st = s.st := rfl
@[simp] theorem setCmd_buf (b : Byte) : (setCmd b s).buf = s.buf := rfl
@[simp] theorem setCmd_cmd (b : Byte) : (setCmd b s).cmd = b := rfl
@[simp] theorem setCmd_plen (b : Byte) : (setCmd b s).plen = s.plen := rfl
@[simp] theorem setCmd_endIdx (b : Byte) : (setCmd b s).endIdx = s.endIdx := rfl
@[simp] theorem setCmd_crcAcc (b : Byte) : (setCmd b s).crcAcc = s.crcAcc := rfl
@[simp] theorem setCmd_out (b : Byte) : (setCmd b s).out = s.out := rfl
@[simp] theorem setCmd_fault (b : Byte) : (setCmd b s).fault = s.fault := rfl
@[simp] theorem setCmd_refused (b : Byte) : (setCmd b s).refused = s.refused := rfl
@[simp] theorem setCmd_conv (b : Byte) : (setCmd b s).conv = s.conv := rfl
@[simp] theorem setCmd_port (b : Byte) : (setCmd b s).port = s.port := rfl
@[simp] theorem setCmd_ops (b : Byte) : (setCmd b s).ops = s.ops := rfl

@[simp] theorem setPlen_st (b : Byte) : (setPlen b s).st = s.st := rfl
@[simp] theorem setPlen_buf (b : Byte) : (setPlen b s).buf = s.buf := rfl
@[simp] theorem setPlen_cmd (b : Byte) : (setPlen b s).cmd = s.cmd := rfl
@[simp] theorem setPlen_plen (b : Byte) : (setPlen b s).plen = b := rfl
@[simp] theorem setPlen_endIdx (b : Byte) : (setPlen b s).endIdx = s.endIdx := rfl
@[simp] theorem setPlen_crcAcc (b : Byte) : (setPlen b s).crcAcc = s.crcAcc := rfl
@[simp] theorem setPlen_out (b : Byte) : (setPlen b s).out = s.out := rfl
@[simp] theorem setPlen_fault (b : Byte) : (setPlen b s).fault = s.fault := rfl
@[simp] theorem setPlen_refused (b : Byte) : (setPlen b s).refused = s.refused := rfl
@[simp] theorem setPlen_conv (b : Byte) : (setPlen b s).conv = s.conv := rfl
@[simp] theorem setPlen_port (b : Byte) : (setPlen b s).port = s.port := rfl
@[simp] theorem setPlen_ops (b : Byte) : (setPlen b s).ops = s.ops := rfl

@[simp] theorem setEndIdx_st (n : Nat) : (setEndIdx n s).st = s.st := rfl
@[simp] theorem setEndIdx_buf (n : Nat) : (setEndIdx n s).buf = s.buf := rfl
@[simp] theorem setEndIdx_cmd (n : Nat) : (setEndIdx n s).cmd = s.cmd := rfl
@[simp] theorem setEndIdx_plen (n : Nat) : (setEndIdx n s).plen = s.plen := rfl
@[simp] theorem setEndIdx_endIdx (n : Nat) : (setEndIdx n s).endIdx = BitVec.ofNat 9 n := rfl
@[simp] theorem setEndIdx_crcAcc (n : Nat) : (setEndIdx n s).crcAcc = s.crcAcc := rfl
@[simp] theorem setEndIdx_out (n : Nat) : (setEndIdx n s).out = s.out := rfl
@[simp] theorem setEndIdx_fault (n : Nat) : (setEndIdx n s).fault = s.fault := rfl
@[simp] theorem setEndIdx_refused (n : Nat) : (setEndIdx n s).refused = s.refused := rfl
@[simp] theorem setEndIdx_conv (n : Nat) : (setEndIdx n s).conv = s.conv := rfl
@[simp] theorem setEndIdx_port (n : Nat) : (setEndIdx n s).port = s.port := rfl
@[simp] theorem setEndIdx_ops (n : Nat) : (setEndIdx n s).ops = s.ops := rfl

@[simp] theorem setCrcAcc_st (c : Byte) : (setCrcAcc c s).st = s.st := rfl
@[simp] theorem setCrcAcc_buf (c : Byte) : (setCrcAcc c s).buf = s.buf := rfl
@[simp] theorem setCrcAcc_cmd (c : Byte) : (setCrcAcc c s).cmd = s.cmd := rfl
@[simp] theorem setCrcAcc_plen (c : Byte) : (setCrcAcc c s).plen = s.plen := rfl
@[simp] theorem setCrcAcc_endIdx (c : Byte) : (setCrcAcc c s).endIdx = s.endIdx := rfl
@[simp] theorem setCrcAcc_crcAcc (c : Byte) : (setCrcAcc c s).crcAcc = c := rfl
@[simp] theorem setCrcAcc_out (c : Byte) : (setCrcAcc c s).out = s.out := rfl
@[simp] theorem setCrcAcc_fault (c : Byte) : (setCrcAcc c s).fault = s.fault := rfl
@[simp] theorem setCrcAcc_refused (c : Byte) : (setCrcAcc c s).refused = s.refused := rfl
@[simp] theorem setCrcAcc_conv (c : Byte) : (setCrcAcc c s).conv = s.conv := rfl
@[simp] theorem setCrcAcc_port (c : Byte) : (setCrcAcc c s).port = s.port := rfl
@[simp] theorem setCrcAcc_ops (c : Byte) : (setCrcAcc c s).ops = s.ops := rfl

@[simp] theorem emit_st (e : Event) : (emit e s).st = s.st := rfl
@[simp] theorem emit_buf (e : Event) : (emit e s).buf = s.buf := rfl
@[simp] theorem emit_cmd (e : Event) : (emit e s).cmd = s.cmd := rfl
@[simp] theorem emit_plen (e : Event) : (emit e s).plen = s.plen := rfl
@[simp] theorem emit_endIdx (e : Event) : (emit e s).endIdx = s.endIdx := rfl
@[simp] theorem emit_crcAcc (e : Event) : (emit e s).crcAcc = s.crcAcc := rfl
@[simp] theorem emit_out (e : Event) : (emit e s).out = s.out ++ [e] := rfl
@[simp] theorem emit_fault (e : Event) : (emit e s).fault = s.fault := rfl
@[simp] theorem emit_refused (e : Event) : (emit e s).refused = s.refused := rfl
@[simp] theorem emit_conv (e : Event) : (emit e s).conv = s.conv := rfl
@[simp] theorem emit_port (e : Event) : (emit e s).port = s.port := rfl
@[simp] theorem emit_ops (e : Event) : (emit e s).ops = s.ops := rfl

@[simp] theorem raiseFault_st (r : FaultMark) : (raiseFault r s).st = s.st := rfl
@[simp] theorem raiseFault_buf (r : FaultMark) : (raiseFault r s).buf = s.buf := rfl
@[simp] theorem raiseFault_cmd (r : FaultMark) : (raiseFault r s).cmd = s.cmd := rfl
@[simp] theorem raiseFault_plen (r : FaultMark) : (raiseFault r s).plen = s.plen := rfl
@[simp] theorem raiseFault_endIdx (r : FaultMark) : (raiseFault r s).endIdx = s.endIdx := rfl
@[simp] theorem raiseFault_crcAcc (r : FaultMark) : (raiseFault r s).crcAcc = s.crcAcc := rfl
@[simp] theorem raiseFault_out (r : FaultMark) : (raiseFault r s).out = s.out := rfl
@[simp] theorem raiseFault_fault (r : FaultMark) : (raiseFault r s).fault = firstMark s.fault r := rfl
@[simp] theorem raiseFault_refused (r : FaultMark) : (raiseFault r s).refused = s.refused := rfl
@[simp] theorem raiseFault_conv (r : FaultMark) : (raiseFault r s).conv = s.conv := rfl
@[simp] theorem raiseFault_port (r : FaultMark) : (raiseFault r s).port = s.port := rfl
@[simp] theorem raiseFault_ops (r : FaultMark) : (raiseFault r s).ops = s.ops := rfl

@[simp] theorem refuse_st (r : RefusedMark) : (refuse r s).st = s.st := rfl
@[simp] theorem refuse_buf (r : RefusedMark) : (refuse r s).buf = s.buf := rfl
@[simp] theorem refuse_cmd (r : RefusedMark) : (refuse r s).cmd = s.cmd := rfl
@[simp] theorem refuse_plen (r : RefusedMark) : (refuse r s).plen = s.plen := rfl
@[simp] theorem refuse_endIdx (r : RefusedMark) : (refuse r s).endIdx = s.endIdx := rfl
@[simp] theorem refuse_crcAcc (r : RefusedMark) : (refuse r s).crcAcc = s.crcAcc := rfl
@[simp] theorem refuse_out (r : RefusedMark) : (refuse r s).out = s.out := rfl
@[simp] theorem refuse_fault (r : RefusedMark) : (refuse r s).fault = s.fault := rfl
@[simp] theorem refuse_refused (r : RefusedMark) : (refuse r s).refused = firstMark s.refused r := rfl
@[simp] theorem refuse_conv (r : RefusedMark) : (refuse r s).conv = s.conv := rfl
@[simp] theorem refuse_port (r : RefusedMark) : (refuse r s).port = s.port := rfl
@[simp] theorem refuse_ops (r : RefusedMark) : (refuse r s).ops = s.ops := rfl

@[simp] theorem resync_st : (resync s).st = stCode .sync := rfl
@[simp] theorem resync_buf : (resync s).buf = [] := rfl
@[simp] theorem resync_cmd : (resync s).cmd = s.cmd := rfl
@[simp] theorem resync_plen : (resync s).plen = s.plen := rfl
@[simp] theorem resync_endIdx : (resync s).endIdx = s.endIdx := rfl
@[simp] theorem resync_crcAcc : (resync s).crcAcc = s.crcAcc := rfl
@[simp] theorem resync_out : (resync s).out = s.out := rfl
@[simp] theorem resync_fault : (resync s).fault = s.fault := rfl
@[simp] theorem resync_refused : (resync s).refused = s.refused := rfl
@[simp] theorem resync_conv : (resync s).conv = s.conv := rfl
@[simp] theorem resync_port : (resync s).port = s.port := rfl
@[simp] theorem resync_ops : (resync s).ops = s.ops := rfl

@[simp] theorem present_st (op : Operation) (rest : List Operation) : (present op rest s).st = s.st := rfl
@[simp] theorem present_buf (op : Operation) (rest : List Operation) : (present op rest s).buf = s.buf := rfl
@[simp] theorem present_cmd (op : Operation) (rest : List Operation) : (present op rest s).cmd = s.cmd := rfl
@[simp] theorem present_plen (op : Operation) (rest : List Operation) : (present op rest s).plen = s.plen := rfl
@[simp] theorem present_endIdx (op : Operation) (rest : List Operation) : (present op rest s).endIdx = s.endIdx := rfl
@[simp] theorem present_crcAcc (op : Operation) (rest : List Operation) : (present op rest s).crcAcc = s.crcAcc := rfl
@[simp] theorem present_out (op : Operation) (rest : List Operation) : (present op rest s).out = s.out := rfl
@[simp] theorem present_fault (op : Operation) (rest : List Operation) : (present op rest s).fault = s.fault := rfl
@[simp] theorem present_refused (op : Operation) (rest : List Operation) : (present op rest s).refused = s.refused := rfl
@[simp] theorem present_conv (op : Operation) (rest : List Operation) : (present op rest s).conv = s.conv := rfl
@[simp] theorem present_port (op : Operation) (rest : List Operation) : (present op rest s).port = op.port := rfl
@[simp] theorem present_ops (op : Operation) (rest : List Operation) : (present op rest s).ops = rest := rfl

@[simp] theorem placeWord_st (w : OpWord) : (placeWord w s).st = s.st := rfl
@[simp] theorem placeWord_buf (w : OpWord) : (placeWord w s).buf = s.buf := rfl
@[simp] theorem placeWord_cmd (w : OpWord) : (placeWord w s).cmd = s.cmd := rfl
@[simp] theorem placeWord_plen (w : OpWord) : (placeWord w s).plen = s.plen := rfl
@[simp] theorem placeWord_endIdx (w : OpWord) : (placeWord w s).endIdx = s.endIdx := rfl
@[simp] theorem placeWord_crcAcc (w : OpWord) : (placeWord w s).crcAcc = s.crcAcc := rfl
@[simp] theorem placeWord_out (w : OpWord) : (placeWord w s).out = s.out := rfl
@[simp] theorem placeWord_fault (w : OpWord) : (placeWord w s).fault = s.fault := rfl
@[simp] theorem placeWord_refused (w : OpWord) : (placeWord w s).refused = s.refused := rfl
@[simp] theorem placeWord_conv (w : OpWord) : (placeWord w s).conv = s.conv := rfl
@[simp] theorem placeWord_port (w : OpWord) : (placeWord w s).port = s.port := rfl
@[simp] theorem placeWord_ops (w : OpWord) : (placeWord w s).ops = ⟨w, s.port⟩ :: s.ops := rfl

@[simp] theorem resetBlock_st : (resetBlock s).st = stCode .sync := rfl
@[simp] theorem resetBlock_buf : (resetBlock s).buf = [] := rfl
@[simp] theorem resetBlock_cmd : (resetBlock s).cmd = 0x00 := rfl
@[simp] theorem resetBlock_plen : (resetBlock s).plen = 0x00 := rfl
@[simp] theorem resetBlock_endIdx : (resetBlock s).endIdx = 0 := rfl
@[simp] theorem resetBlock_crcAcc : (resetBlock s).crcAcc = 0x00 := rfl
@[simp] theorem resetBlock_out : (resetBlock s).out = s.out := rfl
@[simp] theorem resetBlock_fault : (resetBlock s).fault = s.fault := rfl
@[simp] theorem resetBlock_refused : (resetBlock s).refused = s.refused := rfl
@[simp] theorem resetBlock_conv : (resetBlock s).conv = s.conv := rfl
@[simp] theorem resetBlock_port : (resetBlock s).port = s.port := rfl
@[simp] theorem resetBlock_ops : (resetBlock s).ops = s.ops := rfl

@[simp] theorem setAndReportCrc_st (c : Byte) : (setAndReportCrc c s).st = s.st := rfl
@[simp] theorem setAndReportCrc_buf (c : Byte) : (setAndReportCrc c s).buf = s.buf := rfl
@[simp] theorem setAndReportCrc_cmd (c : Byte) : (setAndReportCrc c s).cmd = s.cmd := rfl
@[simp] theorem setAndReportCrc_plen (c : Byte) : (setAndReportCrc c s).plen = s.plen := rfl
@[simp] theorem setAndReportCrc_endIdx (c : Byte) : (setAndReportCrc c s).endIdx = s.endIdx := rfl
@[simp] theorem setAndReportCrc_crcAcc (c : Byte) : (setAndReportCrc c s).crcAcc = c := rfl
@[simp] theorem setAndReportCrc_out (c : Byte) : (setAndReportCrc c s).out = s.out ++ [.crc c] := rfl
@[simp] theorem setAndReportCrc_fault (c : Byte) : (setAndReportCrc c s).fault = s.fault := rfl
@[simp] theorem setAndReportCrc_refused (c : Byte) : (setAndReportCrc c s).refused = s.refused := rfl
@[simp] theorem setAndReportCrc_conv (c : Byte) : (setAndReportCrc c s).conv = s.conv := rfl
@[simp] theorem setAndReportCrc_port (c : Byte) : (setAndReportCrc c s).port = s.port := rfl
@[simp] theorem setAndReportCrc_ops (c : Byte) : (setAndReportCrc c s).ops = s.ops := rfl

end Sys2Proof.Machine
end

