-- ==== Sys2Proof/Laws/Ops.lean ====
section
/-! SUPPORT. One lemma for each shared operation that says everything it can do. -/

namespace Sys2Proof.Machine

open Sys2Proof

@[simp] theorem stOfCode_stCode (a : AsmState) : stOfCode (stCode a) = some a := by cases a <;> rfl

theorem stOfCode_eq_some {c : StCode} {a : AsmState} (h : stOfCode c = some a) : c = stCode a := by
  revert h
  revert c
  cases a <;> decide

theorem stOfCode_eq_none {c : StCode} : stOfCode c = none ↔ 6 ≤ c.toNat := by
  revert c
  decide

theorem firstMark_eq {α : Type} (old : Option α) (r : α) : firstMark old r = some (old.getD r) := by cases old <;> rfl

theorem firstMark_of_some {α : Type} {old : Option α} {q : α} (h : old = some q) (r : α) :
    firstMark old r = some q := by subst h; rfl

theorem appendBuf_of_lt {b : Byte} {k : State → State} {s : State} (h : s.buf.length < 260) :
    appendBuf b k s = .next (k (setBuf (s.buf ++ [b]) s)) := if_pos h

theorem appendBuf_of_ge {b : Byte} {k : State → State} {s : State} (h : 260 ≤ s.buf.length) :
    appendBuf b k s = .fault .bufIndexOutOfRange := if_neg (Nat.not_lt.mpr h)

/-- Everything a buffer write can do. -/
theorem appendBuf_cases (b : Byte) (k : State → State) (s : State) :
    (s.buf.length < 260 ∧ appendBuf b k s = .next (k (setBuf (s.buf ++ [b]) s))) ∨
    (260 ≤ s.buf.length ∧ appendBuf b k s = .fault .bufIndexOutOfRange) := by
  rcases Nat.lt_or_ge s.buf.length 260 with h | h
  · exact .inl ⟨h, appendBuf_of_lt h⟩
  · exact .inr ⟨h, appendBuf_of_ge h⟩

theorem appendBuf_next {b : Byte} {k : State → State} {s t : State} (h : appendBuf b k s = .next t) :
    s.buf.length < 260 ∧ t = k (setBuf (s.buf ++ [b]) s) := by
  rcases appendBuf_cases b k s with ⟨hl, he⟩ | ⟨_, he⟩
  · exact ⟨hl, by rw [he] at h; injection h with h; exact h.symm⟩
  · rw [he] at h; cases h

end Sys2Proof.Machine
end

