-- ==== Sys2Proof/Laws/Assembler.lean ====
section
/-! SUPPORT. Which arm PUSH takes, and everything an arm can do (42_assembler.md R140 to R147). -/

namespace Sys2Proof.Machine

open Sys2Proof

@[simp] theorem recordLength_buf (n : Nat) (b : Byte) (t : State) : (recordLength n b t).buf = t.buf := by
  unfold recordLength; split <;> rfl
@[simp] theorem recordLength_cmd (n : Nat) (b : Byte) (t : State) : (recordLength n b t).cmd = t.cmd := by
  unfold recordLength; split <;> rfl
@[simp] theorem recordLength_plen (n : Nat) (b : Byte) (t : State) : (recordLength n b t).plen = b := by
  unfold recordLength; split <;> rfl
@[simp] theorem recordLength_crcAcc (n : Nat) (b : Byte) (t : State) : (recordLength n b t).crcAcc = t.crcAcc := by
  unfold recordLength; split <;> rfl
@[simp] theorem recordLength_out (n : Nat) (b : Byte) (t : State) : (recordLength n b t).out = t.out := by
  unfold recordLength; split <;> rfl
@[simp] theorem recordLength_fault (n : Nat) (b : Byte) (t : State) : (recordLength n b t).fault = t.fault := by
  unfold recordLength; split <;> rfl
@[simp] theorem recordLength_refused (n : Nat) (b : Byte) (t : State) : (recordLength n b t).refused = t.refused := by
  unfold recordLength; split <;> rfl
@[simp] theorem recordLength_conv (n : Nat) (b : Byte) (t : State) : (recordLength n b t).conv = t.conv := by
  unfold recordLength; split <;> rfl
@[simp] theorem recordLength_port (n : Nat) (b : Byte) (t : State) : (recordLength n b t).port = t.port := by
  unfold recordLength; split <;> rfl
@[simp] theorem recordLength_ops (n : Nat) (b : Byte) (t : State) : (recordLength n b t).ops = t.ops := by
  unfold recordLength; split <;> rfl

@[simp] theorem finishFrame_st (t : State) : (finishFrame t).st = stCode .sync := rfl
@[simp] theorem finishFrame_buf (t : State) : (finishFrame t).buf = [] := rfl
@[simp] theorem finishFrame_cmd (t : State) : (finishFrame t).cmd = t.cmd := rfl
@[simp] theorem finishFrame_plen (t : State) : (finishFrame t).plen = t.plen := rfl
@[simp] theorem finishFrame_endIdx (t : State) : (finishFrame t).endIdx = t.endIdx := rfl
@[simp] theorem finishFrame_crcAcc (t : State) : (finishFrame t).crcAcc = t.crcAcc := rfl
@[simp] theorem finishFrame_out (t : State) : (finishFrame t).out = t.out ++ [frameEvent (validateFrame t.conv t.buf)] := rfl
@[simp] theorem finishFrame_fault (t : State) : (finishFrame t).fault = t.fault := rfl
@[simp] theorem finishFrame_refused (t : State) : (finishFrame t).refused = t.refused := rfl
@[simp] theorem finishFrame_conv (t : State) : (finishFrame t).conv = t.conv := rfl
@[simp] theorem finishFrame_port (t : State) : (finishFrame t).port = t.port := rfl
@[simp] theorem finishFrame_ops (t : State) : (finishFrame t).ops = t.ops := rfl

theorem execPush_sync {s : State} (h : s.st = stCode .sync) (b : Byte) : execPush b s = pushSync b s := by
  simp [execPush, h]

theorem execPush_header {s : State} (h : s.st = stCode .header) (b : Byte) : execPush b s = pushHeader b s := by
  simp [execPush, h]

theorem execPush_command {s : State} (h : s.st = stCode .command) (b : Byte) : execPush b s = pushCommand b s := by
  simp [execPush, h]

theorem execPush_length {s : State} (h : s.st = stCode .length) (b : Byte) : execPush b s = pushLength b s := by
  simp [execPush, h]

theorem execPush_data {s : State} (h : s.st = stCode .data) (b : Byte) : execPush b s = pushData b s := by
  simp [execPush, h]

theorem execPush_crc {s : State} (h : s.st = stCode .crc) (b : Byte) : execPush b s = pushCrc b s := by
  simp [execPush, h]

theorem execPush_illegal {s : State} (h : 6 ≤ s.st.toNat) (b : Byte) :
    execPush b s = .next (raiseFault .illegalState s) := by
  simp [execPush, stOfCode_eq_none.mpr h]

/-- Everything a PUSH that completes can do, arm by arm. -/
theorem execPush_next_cases {b : Byte} {s t : State} (h : execPush b s = .next t) :
    (s.st = stCode .sync ∧ b = 0xAA ∧ t = setSt .header (setBuf [b] s)) ∨
    (s.st = stCode .sync ∧ b ≠ 0xAA ∧ t = resync s) ∨
    (s.st = stCode .header ∧ b = 0x55 ∧ s.buf.length < 260 ∧ t = setSt .command (setBuf (s.buf ++ [b]) s)) ∨
    (s.st = stCode .header ∧ b ≠ 0x55 ∧ t = resync s) ∨
    (s.st = stCode .command ∧ s.buf.length < 260 ∧ t = setSt .length (setCmd b (setBuf (s.buf ++ [b]) s))) ∨
    (s.st = stCode .length ∧ s.buf.length < 260 ∧ t = recordLength s.buf.length b (setBuf (s.buf ++ [b]) s)) ∨
    (s.st = stCode .data ∧ s.buf.length < 260 ∧
      t = setSt (if s.buf.length = s.endIdx.toNat then .crc else .data) (setBuf (s.buf ++ [b]) s)) ∨
    (s.st = stCode .crc ∧ s.buf.length < 260 ∧ t = finishFrame (setBuf (s.buf ++ [b]) s)) ∨
    (6 ≤ s.st.toNat ∧ t = raiseFault .illegalState s) := by
  cases hst : stOfCode s.st with
  | none =>
    rw [execPush_illegal (stOfCode_eq_none.mp hst)] at h
    injection h with h
    exact .inr (.inr (.inr (.inr (.inr (.inr (.inr (.inr ⟨stOfCode_eq_none.mp hst, h.symm⟩)))))))
  | some a =>
    have hc := stOfCode_eq_some hst
    cases a with
    | sync =>
      rw [execPush_sync hc, pushSync] at h
      split at h <;> injection h with h
      · exact .inl ⟨hc, ‹_›, h.symm⟩
      · exact .inr (.inl ⟨hc, ‹_›, h.symm⟩)
    | header =>
      rw [execPush_header hc, pushHeader] at h
      split at h
      · exact .inr (.inr (.inl ⟨hc, ‹_›, appendBuf_next h⟩))
      · injection h with h
        exact .inr (.inr (.inr (.inl ⟨hc, ‹_›, h.symm⟩)))
    | command =>
      rw [execPush_command hc] at h
      exact .inr (.inr (.inr (.inr (.inl ⟨hc, appendBuf_next h⟩))))
    | length =>
      rw [execPush_length hc] at h
      exact .inr (.inr (.inr (.inr (.inr (.inl ⟨hc, appendBuf_next h⟩)))))
    | data =>
      rw [execPush_data hc] at h
      exact .inr (.inr (.inr (.inr (.inr (.inr (.inl ⟨hc, appendBuf_next h⟩))))))
    | crc =>
      rw [execPush_crc hc] at h
      exact .inr (.inr (.inr (.inr (.inr (.inr (.inr (.inl ⟨hc, appendBuf_next h⟩)))))))

end Sys2Proof.Machine
end

