-- ==== Sys2Proof/Laws/Checksum.lean ====
section
/-! SUPPORT. The table's size, and the CRC fold over appended sequences (40_checksum.md R105). -/

namespace Sys2Proof.Machine

open Sys2Proof

/-- The table has 256 entries, so a byte always indexes it (20_memory.md R46). -/
theorem crcTable_length (conv : TableConv) : (crcTable conv).length = 256 := by
  cases conv <;>
    simp only [crcTable, romMsbFirst, romReflected, List.length_append, List.length_cons, List.length_nil]

@[simp] theorem crc8_nil (conv : TableConv) : crc8 conv [] = 0x00 := rfl

theorem crc8_append (conv : TableConv) (s t : List Byte) :
    crc8 conv (s ++ t) = t.foldl (crcFold conv) (crc8 conv s) := List.foldl_append

theorem crcFold_eq (conv : TableConv) (c b : Byte) : crcFold conv c b = tableRead conv (c ^^^ b) := rfl

theorem repeatEight_eq_iterate (f : Byte → Byte) (c : Byte) : repeatEight f c = f^[8] c := rfl

end Sys2Proof.Machine
end

