-- ==== Sys2Proof/Laws/Decode.lean ====
section
/-! SUPPORT. The fields of an operation word and the words they make (30_encoding.md R67). -/

namespace Sys2Proof

theorem opWord_toNat (op : BitVec 4) (d : Byte) : (opWord op d).toNat = op.toNat * 256 + d.toNat := by
  have h := d.isLt
  simp only [opWord, BitVec.toNat_append]
  rw [Nat.shiftLeft_eq, Nat.mul_comm, ← Nat.two_pow_add_eq_or_of_lt h]

theorem opField_toNat (w : OpWord) : (opField w).toNat = w.toNat / 256 := by
  have h := w.isLt
  simp only [opField, BitVec.extractLsb'_toNat, Nat.shiftRight_eq_div_pow]
  omega

theorem dField_toNat (w : OpWord) : (dField w).toNat = w.toNat % 256 := by
  simp [dField, BitVec.extractLsb'_toNat]

@[simp] theorem opField_opWord (op : BitVec 4) (d : Byte) : opField (opWord op d) = op := by
  have := d.isLt
  apply BitVec.eq_of_toNat_eq
  rw [opField_toNat, opWord_toNat]
  omega

@[simp] theorem dField_opWord (op : BitVec 4) (d : Byte) : dField (opWord op d) = d := by
  have := d.isLt
  apply BitVec.eq_of_toNat_eq
  rw [dField_toNat, opWord_toNat]
  omega

@[simp] theorem opWord_fields (w : OpWord) : opWord (opField w) (dField w) = w := by
  apply BitVec.eq_of_toNat_eq
  rw [opWord_toNat, opField_toNat, dField_toNat]
  omega

/-- The decoder on a word given by its fields. -/
theorem decode_opWord (op : BitVec 4) (d : Byte) :
    decode (opWord op d) =
      match op.toNat with
      | 0 => if d = 0 then .ok .reset else .error (.nonzeroOperand op d)
      | 1 => .ok (.push d)
      | 2 => .ok (.tblRead d)
      | 3 => if d = 0 then .ok .crcClr else .error (.nonzeroOperand op d)
      | 4 => .ok (.crcStep d)
      | 5 => if d = 0 then .ok .validate else .error (.nonzeroOperand op d)
      | 6 => .ok (.encode d)
      | _ => .error (.reservedOpcode op) := by
  have hop := opField_opWord op d
  have hd := dField_opWord op d
  generalize opWord op d = w at hop hd ⊢
  subst hop hd
  rfl

end Sys2Proof
end

