-- ==== Sys2Proof/Laws/FrameCodec.lean ====
section
/-! SUPPORT. Sequences, and the shapes of frames (00_scope.md R7, 41_framecodec.md). -/

namespace Sys2Proof.Machine

open Sys2Proof

theorem slice_length (f : List Byte) (a b : Nat) : (slice f a b).length = min (b + 1 - a) (f.length - a) := by
  simp [slice]

theorem slice_of_lt (f : List Byte) {a b : Nat} (h : b < a) : slice f a b = [] := by
  simp [slice, Nat.sub_eq_zero_of_le h]

/-- A sequence of five bytes or more, split as the validator reads it. -/
theorem frame_split {f : List Byte} (h : 5 ≤ f.length) :
    ∃ x y c l p k, f = [x, y, c, l] ++ p ++ [k] := by
  obtain ⟨x, f, rfl⟩ := List.exists_cons_of_length_pos (show 0 < f.length by omega)
  obtain ⟨y, f, rfl⟩ := List.exists_cons_of_length_pos (show 0 < f.length by simp at h; omega)
  obtain ⟨c, f, rfl⟩ := List.exists_cons_of_length_pos (show 0 < f.length by simp at h; omega)
  obtain ⟨l, f, rfl⟩ := List.exists_cons_of_length_pos (show 0 < f.length by simp at h; omega)
  have hf : f ≠ [] := by rintro rfl; simp at h
  exact ⟨x, y, c, l, f.dropLast, f.getLast hf, by simp [List.dropLast_append_getLast]⟩

theorem validateFrame_of_short (conv : TableConv) {f : List Byte} (h : f.length < 5) :
    validateFrame conv f = .err .errShort := dif_pos h

/-- A payload of at most 255 bytes has its one frame (R125). -/
theorem buildFrame_of_le (conv : TableConv) (c : Byte) {p : List Byte} (h : p.length ≤ 255) :
    buildFrame conv c p =
      some ([0xAA, 0x55, c, BitVec.ofNat 8 p.length] ++ p ++ [crc8 conv ([c, BitVec.ofNat 8 p.length] ++ p)]) := by
  rw [buildFrame, payloadLength, if_pos h]
  rfl

/-- A longer payload has none (R126). -/
theorem buildFrame_of_gt (conv : TableConv) (c : Byte) {p : List Byte} (h : 255 < p.length) :
    buildFrame conv c p = none := by
  rw [buildFrame, payloadLength, if_neg (Nat.not_le.mpr h)]

end Sys2Proof.Machine
end

