-- ==== Sys2Proof/Laws/Invariant.lean ====
section
/-! SUPPORT. The rows of the invariant of 10_state.md R31, one lemma each. -/

namespace Sys2Proof.Machine

open Sys2Proof

variable {s : State}

theorem invariantHolds_sync (h : s.st = stCode .sync) : invariantHolds s = true ↔ s.buf = [] := by
  simp [invariantHolds, h]

theorem invariantHolds_header (h : s.st = stCode .header) : invariantHolds s = true ↔ s.buf = [0xAA] := by
  simp [invariantHolds, h]

theorem invariantHolds_command (h : s.st = stCode .command) :
    invariantHolds s = true ↔ s.buf = [0xAA, 0x55] := by
  simp [invariantHolds, h]

theorem invariantHolds_length (h : s.st = stCode .length) :
    invariantHolds s = true ↔ s.buf = [0xAA, 0x55, s.cmd] := by
  simp [invariantHolds, h]

theorem invariantHolds_data (h : s.st = stCode .data) :
    invariantHolds s = true ↔
      s.buf.take 4 = [0xAA, 0x55, s.cmd, s.plen] ∧ 4 ≤ s.buf.length ∧ s.buf.length ≤ s.endIdx.toNat ∧
        s.endIdx.toNat = 3 + s.plen.toNat ∧ 1 ≤ s.plen.toNat := by
  simp [invariantHolds, h, and_assoc]

theorem invariantHolds_crc (h : s.st = stCode .crc) :
    invariantHolds s = true ↔
      s.buf.take 4 = [0xAA, 0x55, s.cmd, s.plen] ∧ s.buf.length = 4 + s.plen.toNat := by
  simp [invariantHolds, h]

/-- The codes 6 and 7 meet no row. -/
theorem invariantHolds_st (h : invariantHolds s = true) : ∃ a, s.st = stCode a := by
  cases ha : stOfCode s.st with
  | none => simp [invariantHolds, ha] at h
  | some a => exact ⟨a, stOfCode_eq_some ha⟩

/-- The invariant reads the assembler's fields only. -/
theorem invariantHolds_congr {t : State} (h : sameAssembler s t) : invariantHolds s = invariantHolds t := by
  obtain ⟨h1, h2, h3, h4, h5⟩ := h
  simp only [invariantHolds, h1, h2, h3, h4, h5]

end Sys2Proof.Machine
end

