-- ==== Sys2Proof/Laws/PerInstr.lean ====
section
/-! SUPPORT. Families of facts with one lemma per operation: the opcode and the `d` byte that an operation's word
carries (30_encoding.md R68). -/

namespace Sys2Proof.Laws

open Sys2Proof

/-- The opcode that R68 gives the operation. -/
def opcodeOf : Instr → BitVec 4
  | .reset => 0x0
  | .push _ => 0x1
  | .tblRead _ => 0x2
  | .crcClr => 0x3
  | .crcStep _ => 0x4
  | .validate => 0x5
  | .encode _ => 0x6

/-- The `d` byte of the operation's word; 0x00 where R68 says it must be. -/
def operandOf : Instr → Byte
  | .reset => 0x00
  | .push b => b
  | .tblRead i => i
  | .crcClr => 0x00
  | .crcStep b => b
  | .validate => 0x00
  | .encode c => c

/-- The operation's word carries its opcode and its operand. -/
def EncodedFields.Statement (i : Instr) : Prop :=
  opField (encode i) = opcodeOf i ∧ dField (encode i) = operandOf i

theorem EncodedFields.reset : EncodedFields.Statement .reset := ⟨opField_opWord _ _, dField_opWord _ _⟩
theorem EncodedFields.push (b : Byte) : EncodedFields.Statement (.push b) := ⟨opField_opWord _ _, dField_opWord _ _⟩
theorem EncodedFields.tblRead (i : Byte) : EncodedFields.Statement (.tblRead i) :=
  ⟨opField_opWord _ _, dField_opWord _ _⟩
theorem EncodedFields.crcClr : EncodedFields.Statement .crcClr := ⟨opField_opWord _ _, dField_opWord _ _⟩
theorem EncodedFields.crcStep (b : Byte) : EncodedFields.Statement (.crcStep b) :=
  ⟨opField_opWord _ _, dField_opWord _ _⟩
theorem EncodedFields.validate : EncodedFields.Statement .validate := ⟨opField_opWord _ _, dField_opWord _ _⟩
theorem EncodedFields.encode (c : Byte) : EncodedFields.Statement (.encode c) :=
  ⟨opField_opWord _ _, dField_opWord _ _⟩

end Sys2Proof.Laws
end

