-- ==== Sys2Proof/Laws/Step.lean ====
section
/-! SUPPORT. What one issued word, one step and one run of operations are, by cases. -/

namespace Sys2Proof.Machine

open Sys2Proof

@[simp] theorem exec_reset (s : State) : exec .reset s = .next (resetBlock s) := rfl

@[simp] theorem exec_push (b : Byte) (s : State) : exec (.push b) s = execPush b s := rfl

@[simp] theorem exec_tblRead (i : Byte) (s : State) :
    exec (.tblRead i) s = .next (emit (.table (tableRead s.conv i)) s) := rfl

@[simp] theorem exec_crcClr (s : State) : exec .crcClr s = .next (setAndReportCrc 0x00 s) := rfl

@[simp] theorem exec_crcStep (b : Byte) (s : State) :
    exec (.crcStep b) s = .next (setAndReportCrc (crcFold s.conv s.crcAcc b) s) := rfl

@[simp] theorem exec_validate (s : State) :
    exec .validate s = .next (emit (.valid (validateFrame s.conv s.port)) s) := rfl

theorem exec_encode_of_some {c : Byte} {s : State} {f : List Byte} (h : buildFrame s.conv c s.port = some f) :
    exec (.encode c) s = .next (emit (.frame f) s) := by
  simp only [exec, execEncode, portPayload, h]

theorem exec_encode_of_le {c : Byte} {s : State} (h : s.port.length ≤ 255) :
    exec (.encode c) s =
      .next (emit (.frame ([0xAA, 0x55, c, BitVec.ofNat 8 s.port.length] ++ s.port ++
        [crc8 s.conv ([c, BitVec.ofNat 8 s.port.length] ++ s.port)])) s) :=
  exec_encode_of_some (buildFrame_of_le s.conv c h)

theorem exec_encode_of_gt {c : Byte} {s : State} (h : 255 < s.port.length) :
    exec (.encode c) s = .next (raiseFault .payloadTooLong s) := by
  simp only [exec, execEncode, portPayload, buildFrame_of_gt s.conv c h]

/-- No operation reads or writes what the host has still to issue. -/
theorem exec_next_ops {i : Instr} {s t : State} (h : exec i s = .next t) : t.ops = s.ops := by
  cases i with
  | push b =>
    rcases execPush_next_cases h with ⟨_, _, rfl⟩ | ⟨_, _, rfl⟩ | ⟨_, _, _, rfl⟩ | ⟨_, _, rfl⟩ | ⟨_, _, rfl⟩ |
      ⟨_, _, rfl⟩ | ⟨_, _, rfl⟩ | ⟨_, _, rfl⟩ | ⟨_, rfl⟩ <;> simp
  | encode c =>
    rcases Nat.lt_or_ge 255 s.port.length with hp | hp
    · rw [exec_encode_of_gt hp] at h; injection h with h; subst h; rfl
    · rw [exec_encode_of_le hp] at h; injection h with h; subst h; rfl
  | reset => injection h with h; subst h; rfl
  | tblRead _ => injection h with h; subst h; rfl
  | crcClr => injection h with h; subst h; rfl
  | crcStep _ => injection h with h; subst h; rfl
  | validate => injection h with h; subst h; rfl

theorem runWord_of_ok {w : OpWord} {i : Instr} (h : decode w = .ok i) (s : State) : runWord w s = exec i s := by
  simp [runWord, h]

theorem runWord_of_error {w : OpWord} {e : DecodeError} (h : decode w = .error e) (s : State) :
    runWord w s = .next (refuse .reservedOp s) := by
  simp [runWord, h]

theorem issue_eq (op : Operation) (rest : List Operation) (s : State) :
    issue op rest s = runWord op.word (present op rest s) := rfl

theorem step_of_nil {s : State} (h : s.ops = []) : step s = .next s := by
  simp [step, issueNext, h]

theorem step_of_cons {s : State} {op : Operation} {rest : List Operation} (h : s.ops = op :: rest) :
    step s = issue op rest s := by
  simp [step, issueNext, h]

/-- Everything a step that completes can be: a wait, a decoded operation, or a reserved word. -/
theorem step_next_cases {s t : State} (h : step s = .next t) :
    (s.ops = [] ∧ t = s) ∨
    (∃ op rest i, s.ops = op :: rest ∧ decode op.word = .ok i ∧ exec i (present op rest s) = .next t) ∨
    (∃ op rest e, s.ops = op :: rest ∧ decode op.word = .error e ∧ t = refuse .reservedOp (present op rest s)) := by
  cases ho : s.ops with
  | nil =>
    rw [step_of_nil ho] at h
    injection h with h
    exact .inl ⟨rfl, h.symm⟩
  | cons op rest =>
    rw [step_of_cons ho, issue_eq] at h
    cases hd : decode op.word with
    | ok i => exact .inr (.inl ⟨op, rest, i, rfl, hd, by rwa [runWord_of_ok hd] at h⟩)
    | error e =>
      rw [runWord_of_error hd] at h
      injection h with h
      exact .inr (.inr ⟨op, rest, e, rfl, hd, h.symm⟩)

@[simp] theorem runOps_nil (s : State) : runOps [] s = .next s := rfl

theorem runOps_cons_of_next {op : Operation} {later : List Operation} {s t : State}
    (h : issue op s.ops s = .next t) : runOps (op :: later) s = runOps later t := by
  simp [runOps, h]

/-- The first operation of a run that completes has completed. -/
theorem runOps_cons_next {op : Operation} {later : List Operation} {s u : State}
    (h : runOps (op :: later) s = .next u) : ∃ t, issue op s.ops s = .next t ∧ runOps later t = .next u := by
  rw [runOps] at h
  split at h
  · exact ⟨_, ‹_›, h⟩
  · cases h
  · cases h

end Sys2Proof.Machine
end

