-- ==== Sys2Proof/Laws/Run.lean ====
section
/-! SUPPORT. Runs of operations written as instructions (30_encoding.md R72, R73). -/

namespace Sys2Proof.Machine

open Sys2Proof

/-- What is issued for an instruction runs that instruction. -/
theorem runWord_encode (i : Instr) (s : State) : runWord (encode i) s = exec i s := by
  refine runWord_of_ok ?_ s
  cases i <;> simp [encode, decode_opWord]

theorem issue_operationOf (i : Instr) (port : List Byte) (rest : List Operation) (s : State) :
    issue (operationOf i port) rest s = exec i (present (operationOf i port) rest s) := runWord_encode i _

@[simp] theorem pushOperations_nil : pushOperations [] = [] := rfl

theorem pushOperations_cons (b : Byte) (bytes : List Byte) :
    pushOperations (b :: bytes) = operationOf (.push b) [] :: pushOperations bytes := rfl

theorem pushOperations_append (f g : List Byte) : pushOperations (f ++ g) = pushOperations f ++ pushOperations g := by
  simp [pushOperations, pseudoOperations, expandPseudo]

/-- One byte of a pushed sequence: `u` is `s` with the frame port empty, as a PUSH is issued. -/
theorem runOps_pushOperations_cons {b : Byte} {bytes : List Byte} {s u t : State} (hu : { s with port := [] } = u)
    (h : exec (.push b) u = .next t) :
    runOps (pushOperations (b :: bytes)) s = runOps (pushOperations bytes) t := by
  subst hu
  rw [pushOperations_cons]
  exact runOps_cons_of_next ((issue_operationOf _ _ _ _).trans h)

end Sys2Proof.Machine
end

