-- ==== Sys2Proof/Tests/Slice0.lean ====
section
/-! SUPPORT. The model's own tests: decoding words written bit by bit from 30_encoding.md R68, the well-formedness smoke
tests, vectors of 95_test_vectors.md (named V-…), and, for each obligation with hypotheses, a state and operands that meet
them (`witness_…`). Expected values are the spec's, not the model's. -/

namespace Sys2Proof.Tests

open Sys2Proof Sys2Proof.Machine

/-! ### States of the vectors -/

/-- HEADER, `[AA]`. -/
def inHeader : State := { State.reset with st := 1, buf := [0xAA] }
/-- COMMAND, `[AA 55]`. -/
def inCommand : State := { State.reset with st := 2, buf := [0xAA, 0x55] }
/-- LENGTH, `[AA 55 01]`. -/
def inLength : State := { State.reset with st := 3, buf := [0xAA, 0x55, 0x01], cmd := 0x01 }
/-- DATA, `[AA 55 02 01]`, `end_idx = 4`. -/
def inData : State := { State.reset with st := 4, buf := [0xAA, 0x55, 0x02, 0x01], cmd := 0x02, plen := 0x01, endIdx := 4 }
/-- CRC, `[AA 55 01 00]`. -/
def inCrc : State := { State.reset with st := 5, buf := [0xAA, 0x55, 0x01, 0x00], cmd := 0x01 }
/-- The forced state 6 of V-A17. -/
def inSix : State := { State.reset with st := 6 }
/-- Power-on with these bytes on the frame port. -/
def withPort (f : List Byte) : State := { State.reset with port := f }
/-- Power-on with these operations issued. -/
def withOps (ops : List Operation) : State := { State.reset with ops := ops }
/-- A buffer of `n` zero bytes in state `c`; past the invariant, for the capacity statements. -/
def withBuffer (c : StCode) (n : Nat) : State := { State.reset with st := c, buf := List.replicate n 0x00 }
theorem withBuffer_length (c : StCode) (n : Nat) : (withBuffer c n).buf.length = n := List.length_replicate
theorem port_replicate_length (n : Nat) : (withPort (List.replicate n 0x00)).port.length = n := List.length_replicate
/-- The frame of S7, 10 bytes. -/
def frameS7 : List Byte := [0xAA, 0x55, 0x01, 0x05, 0x01, 0x00, 0x02, 0x16, 0xE9, 0xD6]

/-- The next state an outcome gives, if it gives one. -/
def nextOf (o : Host.Outcome State Fault Refusal) : Option State :=
  match o with
  | .next t => some t
  | .fault _ => none
  | .refused _ => none

/-! ### Decoding, bit by bit from the encoding column of R68 -/

theorem test_decode_reset : decode 0b000000000000 = .ok .reset := by decide
theorem test_decode_push : decode 0b000110100101 = .ok (.push 0b10100101) := by decide
theorem test_decode_tblRead : decode 0b001000000001 = .ok (.tblRead 0b00000001) := by decide
theorem test_decode_crcClr : decode 0b001100000000 = .ok .crcClr := by decide
theorem test_decode_crcStep : decode 0b010010000000 = .ok (.crcStep 0b10000000) := by decide
theorem test_decode_validate : decode 0b010100000000 = .ok .validate := by decide
theorem test_decode_encode : decode 0b011000010001 = .ok (.encode 0b00010001) := by decide
theorem test_decode_reserved : decode 0b011100000000 = .error (.reservedOpcode 0b0111) := by decide
theorem test_decode_nonzero_d : decode 0b010100000001 = .error (.nonzeroOperand 0b0101 0b00000001) := by decide
theorem test_table_word : decodeTableWord 16 0x1AA = some (.push 0xAA) ∧ decodeTableWord 16 0x700 = none ∧
    decodeTableWord 16 0x1000 = none := by decide
theorem test_fetch_word_runs : step (State.reset.withFetchWord 16 0x1AA) = exec (.push 0xAA) State.reset := by rfl
theorem test_encode_words : encode (.push 0xAA) = 0x1AA ∧ encode .crcClr = 0x300 ∧ encode (.encode 0x01) = 0x601 := by
  decide

/-! ### Well-formedness refuses -/

theorem test_wf_opcode : opcodeAssigned 0x6FF = true ∧ opcodeAssigned 0x700 = false ∧ opcodeAssigned 0xF12 = false := by
  decide
theorem test_wf_operand : operandAllowed 0x001 = false ∧ operandAllowed 0x3FF = false ∧ operandAllowed 0x501 = false ∧
    operandAllowed 0x1FF = true := by decide
theorem test_wf_word : wellFormedWord 0x700 = false ∧ wellFormedWord 0x001 = false ∧ wellFormedWord 0x500 = true := by
  decide

/-! ### Written form (R72) -/

theorem test_render_push : renderOperation [] (.push 0xAA) = "PUSH 0xAA".toList ∧ hexWord 0x1AA = "0x1AA".toList := by
  decide
theorem test_render_encode : renderOperation [0x01, 0x00, 0x02, 0x16, 0xE9] (.encode 0x01) =
    "ENCODE 0x01, [01 00 02 16 E9]".toList := by decide

/-! ### Vectors: table and CRC -/

/-- V-T1 to V-T4, V-T6, V-T7. -/
theorem test_gen : gen .msbFirst 0x01 = 0xD5 ∧ gen .msbFirst 0x80 = 0xEF ∧ gen .msbFirst 0xFF = 0xF9 ∧
    gen .msbFirst 0x00 = 0x00 ∧ gen .reflected 0x01 = 0xF7 ∧ gen .reflected 0x80 = 0xAB := by decide
/-- V-T8. -/
theorem test_tblRead : (nextOf (exec (.tblRead 0xAA) State.reset)).map State.out = some [.table 0x1D] ∧
    (nextOf (exec (.tblRead 0x55) State.reset)).map State.out = some [.table 0xE4] := by decide
/-- V-C4, V-C7, V-C9, V-C10. -/
theorem test_crc8 : crc8 .msbFirst [0xFF, 0xFF] = 0x81 ∧ crc8 .reflected [0xFF] = 0x9F ∧
    crc8 .msbFirst [0x01, 0x00] = 0x0B ∧ crc8 .msbFirst [0x01, 0x05, 0x01, 0x00, 0x02, 0x16, 0xE9] = 0xD6 ∧
    crc8 .msbFirst [0x01, 0x03, 0xAA, 0x55, 0x01] = 0x4B := by decide
/-- V-C12, second operation. -/
theorem test_crcStep : (nextOf (exec (.crcStep 0xD5) { State.reset with crcAcc := 0xD5 })).map State.crcAcc = some 0x00 := by
  decide
/-- V-C13. -/
theorem test_crcClr : (nextOf (exec .crcClr { State.reset with crcAcc := 0xBC })).map State.out = some [.crc 0x00] := by
  decide

/-! ### Vectors: codec -/

/-- V-V6, V-V7. -/
theorem test_validate : validateFrame .msbFirst [0xAA, 0x55, 0x02, 0x01, 0x82, 0x48] = .ok 0x02 0x01 [0x82] ∧
    validateFrame .msbFirst [0xAA, 0x55, 0x02, 0x01, 0x83, 0x48] = .err .errCrc := by decide
/-- V-V8, V-V9: the sync, header and length bytes are not checked. -/
theorem test_validate_unchecked : validateFrame .msbFirst [0x00, 0x00, 0x01, 0x00, 0x0B] = .ok 0x01 0x00 [] ∧
    validateFrame .msbFirst [0xAA, 0x55, 0x01, 0x05, 0x20] = .ok 0x01 0x05 [] := by decide
/-- S4, S5 and S8, with the REFLECTED values the spec gives. -/
theorem test_build : buildFrame .msbFirst 0x02 [0x02, 0x01] = some [0xAA, 0x55, 0x02, 0x02, 0x02, 0x01, 0x9A] ∧
    buildFrame .reflected 0x03 [0x05, 0x01] = some [0xAA, 0x55, 0x03, 0x02, 0x05, 0x01, 0x90] := by decide
/-- V-E7's payload has no frame, not the wrapped one (ID1). -/
theorem test_build_too_long : buildFrame .msbFirst 0x10 (List.replicate 256 0x00) = none :=
  buildFrame_of_gt _ _ (by rw [List.length_replicate]; decide)
/-- V-E4: nothing is escaped. -/
theorem test_encode : (nextOf (exec (.encode 0xAA) (withPort [0xAA, 0x55]))).map State.out =
    some [.frame [0xAA, 0x55, 0xAA, 0x02, 0xAA, 0x55, 0x68]] := by decide
/-- V-E7. -/
theorem test_encode_too_long : exec (.encode 0x10) (withPort (List.replicate 256 0x00)) =
    .next { withPort (List.replicate 256 0x00) with fault := some .payloadTooLong } := by
  have h (f : List Byte) (hf : 255 < f.length) : exec (.encode 0x10) (withPort f) =
      .next { withPort f with fault := some .payloadTooLong } := exec_encode_of_gt hf
  exact h _ (by rw [List.length_replicate]; decide)
/-- R122, R171: the codes. -/
theorem test_codes : resultCode (.ok 0 0 []) = 0 ∧ resultCode (.err .errShort) = 1 ∧ resultCode (.err .errCrc) = 2 ∧
    faultCode .payloadTooLong = 1 ∧ faultCode .illegalState = 2 := by decide

/-! ### Vectors: assembler and reset -/

/-- V-A5: a wrong header byte is not examined again. -/
theorem test_push_wrong_header : nextOf (exec (.push 0xAA) inHeader) = some State.reset := by decide
/-- V-A10. -/
theorem test_push_length : (nextOf (exec (.push 0xFF) inLength)).map (fun t => (t.st, t.endIdx)) = some (4, 258) := by decide
/-- V-R1, V-R2. -/
theorem test_reset : nextOf (exec .reset { inData with crcAcc := 0xBC, fault := some .payloadTooLong }) =
    some { State.reset with fault := some .payloadTooLong } := by decide

/-! ### Witnesses: words and steps -/

theorem witness_OpcodeMapDecodesEveryRow : 7 ≤ (0x7 : BitVec 4).toNat ∧ (0x01 : Byte) ≠ 0 := by decide
theorem witness_DecodeInvertsEncode : (Instr.push 0xFF).wellFormed = true ∧ decode 0x1FF = .ok (.push 0xFF) := by decide
theorem witness_StepRunsTheDecodedOperation :
    (withOps [⟨0x500, [0xAA]⟩, ⟨0x000, []⟩]).ops = ⟨0x500, [0xAA]⟩ :: [⟨0x000, []⟩] ∧
    decode (Operation.mk 0x500 [0xAA]).word = .ok .validate ∧ Instr.validate.wellFormed = true := by decide
/-- The first reserved opcode, and each of the three words whose `d` must be 0. -/
theorem witness_ReservedWordIsRefused : (withOps [⟨0x700, []⟩]).ops = ⟨0x700, []⟩ :: [] ∧
    7 ≤ (0x700 : OpWord).toNat / 256 ∧ (0x001 : OpWord).toNat / 256 = 0 ∧ (0x001 : OpWord).toNat % 256 ≠ 0 ∧
    (0x3FF : OpWord).toNat / 256 = 3 ∧ (0x3FF : OpWord).toNat % 256 ≠ 0 ∧
    (0x501 : OpWord).toNat / 256 = 5 ∧ (0x501 : OpWord).toNat % 256 ≠ 0 := by decide
theorem witness_WaitingChangesNothing : inData.ops = [] := by decide
theorem witness_StepsTakeOperationsInIssueOrder :
    (withOps [⟨0x1AA, []⟩, ⟨0x155, []⟩]).ops = [⟨0x1AA, []⟩] ++ [⟨0x155, []⟩] := by decide
/-- A PUSH in DATA with the buffer full. -/
theorem push_into_full (n : Nat) (hn : 260 ≤ n) : runOps [⟨0x155, []⟩] (withBuffer 4 n) = .fault .bufIndexOutOfRange := by
  have hi : issue ⟨0x155, []⟩ (withBuffer 4 n).ops (withBuffer 4 n) = .fault .bufIndexOutOfRange := by
    rw [issue_eq, runWord_of_ok (i := .push 0x55) (by decide), exec_push, execPush_data rfl]
    exact appendBuf_of_ge (by rw [present_buf, withBuffer_length]; exact hn)
  rw [runOps, hi]
/-- A run that completes, with a sequence left on the port by its first operation, and one that stops. -/
theorem witness_RunsCompose :
    nextOf (runOps [⟨0x1AA, [0x07]⟩] State.reset) = some { inHeader with port := [0x07] } ∧
    [Operation.mk 0x155 []] ≠ [] ∧
    nextOf (runOps ([⟨0x1AA, [0x07]⟩] ++ [⟨0x155, []⟩]) State.reset) = some inCommand ∧
    runOps [] (withBuffer 4 260) = .next (withBuffer 4 260) ∧
    runOps ([] ++ [⟨0x155, []⟩]) (withBuffer 4 260) = .fault .bufIndexOutOfRange :=
  ⟨by decide, by decide, by decide, rfl, push_into_full 260 (by decide)⟩
theorem witness_BlocksAreIndependent : step (#v[withOps [⟨0x1AA, []⟩], inData])[(0 : Fin 2)] = .next inHeader ∧
    (nextOf (step (withOps [⟨0x1AA, []⟩]))).isSome = true ∧ (1 : Fin 2) ≠ 0 := by
  refine ⟨rfl, by decide, by decide⟩

/-! ### Witnesses: reset, table, CRC -/

theorem witness_ResetOperation : (0x01 : Byte) ≠ 0 ∧ ({ State.reset with cmd := 0x01 } : State).st = 0 ∧
    ({ State.reset with cmd := 0x01 } : State).buf = [] ∧ ({ State.reset with cmd := 0x01 } : State).crcAcc = 0x00 := by
  decide
theorem witness_TableReadOperation : State.reset.conv = .msbFirst := by decide
theorem witness_CrcClearOperation : (0xFF : Byte) ≠ 0 := by decide
theorem witness_CrcStepOperation : State.reset.crcAcc = 0x00 ∧ State.reset.conv = .msbFirst := by decide
theorem witness_CrcSelfCheck : 5 ≤ [0xAA, 0x55, 0x00, 0x00, (0x00 : Byte)].length := by decide
theorem witness_CrcIsLinear : [(0x01 : Byte)].length = [(0x02 : Byte)].length := by decide

/-! ### Witnesses: codec -/

theorem witness_ValidatorComparesTheCrc : [0xAA, 0x55, 0x01, (0x00 : Byte)].length < 5 := by decide
theorem witness_ValidateOperation : (0x01 : Byte) ≠ 0 ∧ (withPort [0xAA, 0x55, 0x01, 0x00]).port.length ≤ 4 ∧
    (withPort [0xAA, 0x55, 0x01, 0x00, 0x0B]).conv = .msbFirst ∧
    (withPort [0xAA, 0x55, 0x01, 0x00, 0x0B]).port = [0xAA, 0x55, 0x01, 0x00, 0x0B] ∧
    (withPort [0xAA, 0x55, 0x01, 0x00, 0x0C]).conv = .msbFirst ∧
    (withPort [0xAA, 0x55, 0x01, 0x00, 0x0C]).port = [0xAA, 0x55, 0x01, 0x00, 0x0C] ∧
    (withPort [0xAA, 0x55, 0x00, 0x00, 0x00]).port = [0xAA, 0x55, 0x00, 0x00, 0x00] := by decide
theorem witness_NoBypassOfTheCrc : validateFrame .msbFirst frameS7 = .ok 0x01 0x05 [0x01, 0x00, 0x02, 0x16, 0xE9] := by decide
theorem witness_BuiltFrameHasTheFrameFormat : (List.replicate 255 (0x00 : Byte)).length ≤ 255 :=
  List.length_replicate.le
theorem witness_BuiltFrameValidates : (List.replicate 255 (0xFF : Byte)).length ≤ 255 :=
  List.length_replicate.le
/-- The first payload that has no frame, and a payload that has one and what ENCODE emits for it. -/
theorem witness_OversizedPayloadHasNoFrame : 255 < (withPort (List.replicate 256 0x00)).port.length ∧
    buildFrame .msbFirst 0x01 [] = some [0xAA, 0x55, 0x01, 0x00, 0x0B] ∧
    nextOf (exec (.encode 0x01) State.reset) = some { State.reset with out := [.frame [0xAA, 0x55, 0x01, 0x00, 0x0B]] } := by
  rw [port_replicate_length]
  decide
/-- The bound's two sides, the empty payload, and the example's payload. -/
theorem witness_EncodeOperation : (withPort (List.replicate 255 0x00)).port.length ≤ 255 ∧
    255 < (withPort (List.replicate 256 0x00)).port.length ∧ (withPort []).port = [] ∧
    (withPort [0x01, 0x00, 0x02, 0x16, 0xE9]).conv = .msbFirst ∧
    (withPort [0x01, 0x00, 0x02, 0x16, 0xE9]).port = [0x01, 0x00, 0x02, 0x16, 0xE9] := by
  rw [port_replicate_length, port_replicate_length]
  decide
/-- The first and the last index of the detected range, and an index of the other. -/
theorem witness_OneByteErrorsAreDetected : validateFrame .msbFirst frameS7 = .ok 0x01 0x05 [0x01, 0x00, 0x02, 0x16, 0xE9] ∧
    2 < frameS7.length ∧ frameS7[2]? ≠ some 0x00 ∧ 9 < frameS7.length ∧ frameS7[9]? ≠ some 0xD7 ∧ 1 < 2 := by decide

/-! ### Witnesses: assembler -/

theorem witness_PushInSync : State.reset.st = 0 ∧ invariantHolds State.reset = true := by decide
theorem witness_PushInHeader : inHeader.st = 1 ∧ inHeader.buf.length < 260 ∧ (0xAA : Byte) ≠ 0x55 := by decide
theorem witness_PushInCommand : inCommand.st = 2 ∧ inCommand.buf.length < 260 := by decide
theorem witness_PushInLength : inLength.st = 3 ∧ inLength.buf.length ≤ 256 ∧ invariantHolds inLength = true ∧
    (0x01 : Byte) ≠ 0 ∧ (0xFF : Byte) ≠ 0 := by decide
theorem witness_PushInData : inData.st = 4 ∧ inData.buf.length < 260 ∧ inData.buf.length = inData.endIdx.toNat ∧
    invariantHolds inData = true ∧ inData.buf.length ≠ ({ inData with endIdx := 5 } : State).endIdx.toNat := by decide
theorem witness_PushInCrc : inCrc.st = 5 ∧ inCrc.buf.length < 260 ∧ invariantHolds inCrc = true ∧
    validateFrame inCrc.conv (inCrc.buf ++ [0x0B]) = .ok 0x01 0x00 [] ∧
    validateFrame inCrc.conv (inCrc.buf ++ [0x0C]) = .err .errCrc := by decide
theorem witness_PushInAnIllegalState : inSix.st = 6 ∧ ({ inSix with st := 7 } : State).st = 7 := by decide
theorem witness_PushCompletes : (withBuffer 4 259).buf.length < 260 ∧ (withBuffer 4 259).st.toNat < 6 := by
  rw [withBuffer_length]; exact ⟨by decide, by decide⟩
theorem witness_PushPastTheBufferStops : 260 ≤ (withBuffer 5 260).buf.length ∧ (withBuffer 5 260).st = 5 ∧
    260 ≤ (withBuffer 1 260).buf.length ∧ (withBuffer 1 260).st = 1 ∧
    260 ≤ (withBuffer 0 260).buf.length ∧ (withBuffer 0 260).st = 0 := by
  simp only [withBuffer_length]
  exact ⟨by decide, rfl, by decide, rfl, by decide, rfl⟩
theorem witness_PushEmitsAtMostOneEvent : nextOf (exec (.push 0x0B) inCrc) =
    some { inCrc with st := 0, buf := [], out := [.dispatch 0x01 0x00 []] } ∧ inCrc.st = 5 ∧
    nextOf (exec (.push 0x55) inHeader) = some inCommand ∧ inHeader.st ≠ 5 := by decide
theorem witness_AssembledFramesAreWellShaped : invariantHolds inCrc = true ∧ inCrc.st = 5 := by decide
/-- The longest payload, and a resync with and without discarded bytes. -/
theorem witness_BuiltFrameIsDispatched : State.reset.st = 0 ∧ (List.replicate 255 (0x00 : Byte)).length ≤ 255 ∧
    (0xAA : Byte) ≠ 0x55 ∧ (0xAA : Byte) ∉ ([] : List Byte) ∧ (0xAA : Byte) ∉ [0x55, 0x01] :=
  ⟨rfl, List.length_replicate.le, by decide, by decide, by decide⟩
theorem witness_CaptureIsBoundedByTheLengthByte : invariantHolds inLength = true ∧ inLength.st = 3 ∧
    [0xAA, 0x55, (0x01 : Byte)].length = (0x03 : Byte).toNat ∧ ([] : List Byte).length = (0x00 : Byte).toNat := by decide
theorem witness_PartialFramePersists : invariantHolds inLength = true ∧ inLength.st = 3 ∧
    ([] : List Byte).length < (0x01 : Byte).toNat ∧ [0xAA, (0x55 : Byte)].length < (0x03 : Byte).toNat := by decide
theorem witness_StraySyncLosesTheFrame : State.reset.st = 0 ∧ (0xAA : Byte) ≠ 0x55 ∧
    (0xAA : Byte) ∉ [0x55, 0x01, 0x00, 0x0B] := by decide

/-! ### Witnesses: the whole machine -/

theorem witness_StepKeepsTheInvariant : invariantHolds { inData with ops := [⟨0x182, []⟩] } = true ∧
    (nextOf (step { inData with ops := [⟨0x182, []⟩] })).map State.st = some 5 := by decide
theorem witness_BufferNeverOverflows : invariantHolds inCrc = true ∧ inCrc.st = 5 := by decide
theorem witness_StepAppendsAtMostOneEvent :
    (nextOf (step (withOps [⟨0x300, []⟩]))).map State.out = some [.crc 0x00] := by decide
theorem witness_MarksAreSticky : (nextOf (step { withOps [⟨0x000, []⟩] with
      fault := some .payloadTooLong, refused := some .reservedOp })).isSome = true ∧
    ({ withOps [⟨0x000, []⟩] with fault := some .payloadTooLong, refused := some .reservedOp } : State).fault =
      some .payloadTooLong ∧
    ({ withOps [⟨0x000, []⟩] with fault := some .payloadTooLong, refused := some .reservedOp } : State).refused =
      some .reservedOp := by decide
/-- V-R3, and V-A17 with the mark of an illegal state. -/
theorem witness_MarksHaveTheirConditions :
    (nextOf (step (withOps [⟨0x700, []⟩]))).map State.refused = some (some .reservedOp) ∧
    (withOps [⟨0x700, []⟩]).refused = none ∧
    (nextOf (step { inSix with ops := [⟨0x1AA, []⟩] })).map State.fault = some (some .illegalState) ∧
    inSix.fault = none := by decide
/-- A legal operation, ENCODE at the bound and past it, and a reserved word. -/
theorem witness_StepStaysGoodExactlyOnLegalOperations :
    invariantHolds { inData with ops := [⟨0x700, []⟩] } = true ∧
    ({ inData with ops := [⟨0x700, []⟩] } : State).ops = ⟨0x700, []⟩ :: [] ∧ goodState inData = true ∧
    decode (Operation.mk 0x182 []).word = .ok (.push 0x82) ∧
    (Operation.mk 0x601 (List.replicate 255 0x00)).port.length ≤ 255 ∧
    255 < (Operation.mk 0x601 (List.replicate 256 0x00)).port.length := by
  simp only [List.length_replicate]
  decide
theorem witness_TableStaysFixed : (nextOf (step (withOps [⟨0x000, []⟩]))).isSome = true := by decide
theorem witness_EachOperationWritesItsOwnUnit : nextOf (exec .validate inData) =
    some { inData with out := [.valid (.err .errShort)] } ∧ (∀ b, Instr.validate ≠ .push b) ∧ Instr.validate ≠ .reset ∧
    Instr.validate ≠ .crcClr ∧ (∀ b, Instr.validate ≠ .crcStep b) := by
  refine ⟨by decide, fun b => by simp, by decide, by decide, fun b => by simp⟩
theorem witness_InterleavingLeavesTheFramePathAlone : invariantHolds inData = true := by decide
/-- States that differ in all three unobservable fields. -/
theorem witness_StaleFieldsAreUnobservable :
    sameObservable inHeader { inHeader with cmd := 0x07, plen := 0x09, endIdx := 258 } ∧
    nextOf (runOps [⟨0x155, []⟩] inHeader) = some inCommand ∧
    runOps [⟨0x155, []⟩] (withBuffer 4 260) = .fault .bufIndexOutOfRange := by
  exact ⟨by simp [sameObservable, inHeader, stCode], by decide, push_into_full 260 (by decide)⟩
theorem witness_GoodRunsAreTheLegalOnes : decode (Operation.mk 0x601 []).word = .ok (.encode 0x01) ∧
    (Operation.mk 0x601 []).port.length ≤ 255 := by decide

end Sys2Proof.Tests
end

section
/-! PROOFS. What a completing operation does to the output trace (10_state.md R29), and O51: a step appends at most one
event (00_scope.md R10). -/

namespace Sys2Proof.Proofs

open Sys2Proof Sys2Proof.Machine

/-- Only the CRC arm of PUSH emits: the event of its validated frame (42_assembler.md R146, R148). -/
theorem execPush_next_out {b : Byte} {s t : State} (h : execPush b s = .next t) :
    t.out = s.out ∨
    (s.st = stCode .crc ∧ t.out = s.out ++ [frameEvent (validateFrame s.conv (s.buf ++ [b]))]) := by
  rcases execPush_next_cases h with ⟨-, -, rfl⟩ | ⟨-, -, rfl⟩ | ⟨-, -, -, rfl⟩ | ⟨-, -, rfl⟩ | ⟨-, -, rfl⟩ |
    ⟨-, -, rfl⟩ | ⟨-, -, rfl⟩ | ⟨hcrc, -, rfl⟩ | ⟨-, rfl⟩
  on_goal 8 => exact .inr ⟨hcrc, rfl⟩
  all_goals exact .inl (by simp)

/-- ENCODE emits the frame it builds, or only raises its fault (41_framecodec.md R126, R127). -/
theorem exec_encode_next_out {c : Byte} {s t : State} (h : exec (.encode c) s = .next t) :
    (255 < s.port.length ∧ t.out = s.out) ∨ ∃ f, buildFrame s.conv c s.port = some f ∧ t.out = s.out ++ [.frame f] := by
  rcases Nat.lt_or_ge 255 s.port.length with long | fits
  · rw [exec_encode_of_gt long] at h
    injection h with h
    exact .inl ⟨long, by simp [← h]⟩
  · have built := buildFrame_of_le s.conv c fits
    rw [exec_encode_of_some built] at h
    injection h with h
    exact .inr ⟨_, built, by simp [← h]⟩

/-- Every operation that completes leaves the trace alone or adds one event at its end. -/
theorem exec_next_out {i : Instr} {s t : State} (h : exec i s = .next t) :
    t.out = s.out ∨ ∃ e, t.out = s.out ++ [e] := by
  cases i with
  | reset => injection h with h; exact .inl (by simp [← h])
  | push b => exact (execPush_next_out h).imp_right fun ⟨_, ht⟩ => ⟨_, ht⟩
  | tblRead _ => injection h with h; exact .inr ⟨_, by rw [← h, emit_out]⟩
  | crcClr => injection h with h; exact .inr ⟨_, by rw [← h, setAndReportCrc_out]⟩
  | crcStep _ => injection h with h; exact .inr ⟨_, by rw [← h, setAndReportCrc_out]⟩
  | validate => injection h with h; exact .inr ⟨_, by rw [← h, emit_out]⟩
  | encode c => exact (exec_encode_next_out h).imp And.right fun ⟨_, _, ht⟩ => ⟨_, ht⟩

/-- Settles O51: a wait and a reserved word leave the trace alone, and a decoded operation is `exec_next_out`, from a
state whose trace `present` has not touched. -/
theorem stepAppendsAtMostOneEvent : Obligations.StepAppendsAtMostOneEvent := by
  intro s t h
  rcases step_next_cases h with ⟨-, rfl⟩ | ⟨op, rest, i, -, -, hexec⟩ | ⟨op, rest, e, -, -, rfl⟩
  · exact .inl rfl
  · simpa only [present_out] using exec_next_out hexec
  · exact .inl (by simp)

end Sys2Proof.Proofs
end

section
/-! PROOFS. The invariant of 10_state.md R31: the power-on state meets it (O47), every step keeps it (O48), and in a
state that meets it the buffer has room for one more byte (42_assembler.md R153). -/

namespace Sys2Proof.Proofs

open Sys2Proof Sys2Proof.Machine

/-- Settles O47: power-on is in SYNC with an empty buffer. -/
theorem powerOnMeetsTheInvariant : Obligations.PowerOnMeetsTheInvariant :=
  (invariantHolds_sync (s := State.reset) rfl).mpr rfl

/-! ### PUSH, arm by arm -/

/-- The codes 6 and 7 are excluded. -/
theorem st_lt_of_invariant {s : State} (hs : invariantHolds s = true) : s.st.toNat < 6 := by
  obtain ⟨a, hst⟩ := invariantHolds_st hs
  rw [hst]
  cases a <;> decide

/-- The LENGTH arm on a buffer of three bytes: a zero length byte leads to the CRC row, any other to the DATA row, whose
completion index `3 + b` fits the 9 bits of `end_idx`. -/
theorem recordLength_meets_invariant {b : Byte} {t : State} (hbuf : t.buf = [0xAA, 0x55, t.cmd, b]) :
    invariantHolds (recordLength 3 b t) = true := by
  unfold recordLength
  split
  next hb => exact (invariantHolds_crc rfl).mpr (by simp [hbuf, hb])
  next hb =>
    have hb : b.toNat ≠ 0 := fun h0 => hb (BitVec.eq_of_toNat_eq h0)
    have hend : (BitVec.ofNat 9 (3 + b.toNat)).toNat = 3 + b.toNat := by
      rw [BitVec.toNat_ofNat]; exact Nat.mod_eq_of_lt (by omega)
    refine (invariantHolds_data rfl).mpr ?_
    simp only [setSt_buf, setSt_cmd, setSt_plen, setSt_endIdx, setEndIdx_buf, setEndIdx_cmd, setEndIdx_plen,
      setEndIdx_endIdx, setPlen_buf, setPlen_cmd, setPlen_plen, hend, hbuf]
    exact ⟨by simp, by simp, by simp; omega, trivial, by omega⟩

/-- The DATA arm: the byte at `end_idx` completes the CRC row's buffer, an earlier one stays within the DATA row. -/
theorem pushData_keeps_invariant {b : Byte} {s : State} (hs : invariantHolds s = true) (hst : s.st = stCode .data) :
    invariantHolds (setSt (if s.buf.length = s.endIdx.toNat then .crc else .data) (setBuf (s.buf ++ [b]) s)) = true := by
  obtain ⟨htake, hfour, hle, hend, hplen⟩ := (invariantHolds_data hst).mp hs
  have htake' : (s.buf ++ [b]).take 4 = [0xAA, 0x55, s.cmd, s.plen] := by
    rw [List.take_append_of_le_length hfour, htake]
  split
  next hlast => exact (invariantHolds_crc rfl).mpr ⟨htake', by simp; omega⟩
  next hmore => exact (invariantHolds_data rfl).mpr ⟨htake', by simp; omega, by simp; omega, hend, hplen⟩

theorem execPush_keeps_invariant {b : Byte} {s t : State} (hs : invariantHolds s = true)
    (h : execPush b s = .next t) : invariantHolds t = true := by
  rcases execPush_next_cases h with ⟨-, rfl, rfl⟩ | ⟨-, -, rfl⟩ | ⟨hst, rfl, -, rfl⟩ | ⟨-, -, rfl⟩ | ⟨hst, -, rfl⟩ |
    ⟨hst, -, rfl⟩ | ⟨hst, -, rfl⟩ | ⟨-, -, rfl⟩ | ⟨hst, rfl⟩
  · exact (invariantHolds_header rfl).mpr rfl
  · exact (invariantHolds_sync rfl).mpr rfl
  · have hbuf := (invariantHolds_header hst).mp hs
    exact (invariantHolds_command rfl).mpr (by simp [hbuf])
  · exact (invariantHolds_sync rfl).mpr rfl
  · have hbuf := (invariantHolds_command hst).mp hs
    exact (invariantHolds_length rfl).mpr (by simp [hbuf])
  · have hbuf := (invariantHolds_length hst).mp hs
    rw [show s.buf.length = 3 by simp [hbuf]]
    exact recordLength_meets_invariant (by simp [hbuf])
  · exact pushData_keeps_invariant hs hst
  · exact (invariantHolds_sync rfl).mpr rfl
  · exact absurd (st_lt_of_invariant hs) (Nat.not_lt.mpr hst)

/-! ### The other operations, and a step -/

/-- Only PUSH and RESET write the assembler (42_assembler.md R155). -/
theorem exec_next_sameAssembler {i : Instr} {s t : State} (hpush : ∀ b, i ≠ .push b) (hreset : i ≠ .reset)
    (h : exec i s = .next t) : sameAssembler s t := by
  cases i with
  | reset => exact absurd rfl hreset
  | push b => exact absurd rfl (hpush b)
  | encode c =>
    rcases Nat.lt_or_ge 255 s.port.length with long | fits
    · rw [exec_encode_of_gt long] at h; injection h with h; simp [sameAssembler, ← h]
    · rw [exec_encode_of_le fits] at h; injection h with h; simp [sameAssembler, ← h]
  | tblRead _ | crcClr | crcStep _ | validate => injection h with h; simp [sameAssembler, ← h]

theorem exec_keeps_invariant {i : Instr} {s t : State} (hs : invariantHolds s = true) (h : exec i s = .next t) :
    invariantHolds t = true := by
  cases i with
  | reset =>
    injection h with h
    exact h ▸ (invariantHolds_sync rfl).mpr rfl
  | push b => exact execPush_keeps_invariant hs h
  | tblRead _ | crcClr | crcStep _ | validate | encode _ =>
    exact (invariantHolds_congr (exec_next_sameAssembler (by simp) (by simp) h)).symm.trans hs

/-- The host's side is no part of the invariant. -/
theorem invariantHolds_present (op : Operation) (rest : List Operation) (s : State) :
    invariantHolds (present op rest s) = invariantHolds s := rfl

/-- Settles O48: a wait and a reserved word leave the assembler alone, and a decoded operation is
`exec_keeps_invariant`. -/
theorem stepKeepsTheInvariant : Obligations.StepKeepsTheInvariant := by
  intro s t hs h
  rcases step_next_cases h with ⟨-, rfl⟩ | ⟨op, rest, i, -, -, hexec⟩ | ⟨op, rest, e, -, -, rfl⟩
  · exact hs
  · exact exec_keeps_invariant ((invariantHolds_present op rest s).trans hs) hexec
  · exact hs

/-! ### Room in the buffer -/

/-- A state that meets the invariant holds at most the first 259 bytes of a frame. -/
theorem buf_length_le_of_invariant {s : State} (hs : invariantHolds s = true) : s.buf.length ≤ 259 := by
  have hplen := s.plen.isLt
  obtain ⟨a, hst⟩ := invariantHolds_st hs
  cases a with
  | sync => simp [(invariantHolds_sync hst).mp hs]
  | header => simp [(invariantHolds_header hst).mp hs]
  | command => simp [(invariantHolds_command hst).mp hs]
  | length => simp [(invariantHolds_length hst).mp hs]
  | data =>
    obtain ⟨-, -, hle, hend, -⟩ := (invariantHolds_data hst).mp hs
    omega
  | crc =>
    obtain ⟨-, hlen⟩ := (invariantHolds_crc hst).mp hs
    omega

end Sys2Proof.Proofs
end

section
/-! PROOFS. What an operation that completes does to the marks and the table (10_state.md R28, R30): the marks are
sticky (O52), the table is fixed (O54), and a step stays good exactly on a legal operation (O60). -/

namespace Sys2Proof.Proofs

open Sys2Proof Sys2Proof.Machine

/-- The fault an operation raises in a state, by the table of 60_exceptions.md R171. -/
def raisedFault (i : Instr) (s : State) : Option FaultMark :=
  match i with
  | .push _ => if 6 ≤ s.st.toNat then some .illegalState else none
  | .encode _ => if 255 < s.port.length then some .payloadTooLong else none
  | .reset | .tblRead _ | .crcClr | .crcStep _ | .validate => none

theorem firstMark_eq_or {α : Type} (old : Option α) (r : α) : firstMark old r = old.or (some r) := by
  cases old <;> rfl

theorem execPush_next_fault {b : Byte} {s t : State} (h : execPush b s = .next t) :
    t.fault = s.fault.or (raisedFault (.push b) s) := by
  have named {a : AsmState} (hst : s.st = stCode a) (ht : t.fault = s.fault) :
      t.fault = s.fault.or (raisedFault (.push b) s) := by
    have hlt : ¬ 6 ≤ s.st.toNat := by rw [hst]; cases a <;> decide
    rw [ht, raisedFault, if_neg hlt, Option.or_none]
  rcases execPush_next_cases h with ⟨hst, -, rfl⟩ | ⟨hst, -, rfl⟩ | ⟨hst, -, -, rfl⟩ | ⟨hst, -, rfl⟩ | ⟨hst, -, rfl⟩ |
    ⟨hst, -, rfl⟩ | ⟨hst, -, rfl⟩ | ⟨hst, -, rfl⟩ | ⟨hst, rfl⟩
  on_goal 9 => rw [raisedFault, if_pos hst, raiseFault_fault, firstMark_eq_or]
  all_goals exact named hst (by simp)

/-- An operation that completes raises its fault under an earlier one, and writes the mark in no other way. -/
theorem exec_next_fault {i : Instr} {s t : State} (h : exec i s = .next t) :
    t.fault = s.fault.or (raisedFault i s) := by
  cases i with
  | push b => exact execPush_next_fault h
  | encode c =>
    rcases Nat.lt_or_ge 255 s.port.length with long | fits
    · rw [exec_encode_of_gt long] at h
      injection h with h
      rw [← h, raisedFault, if_pos long, raiseFault_fault, firstMark_eq_or]
    · rw [exec_encode_of_le fits] at h
      injection h with h
      rw [← h, raisedFault, if_neg (Nat.not_lt.mpr fits), emit_fault, Option.or_none]
  | reset | tblRead _ | crcClr | crcStep _ | validate =>
    injection h with h
    simp [← h, raisedFault]

/-- No operation writes the `refused` mark, which decoding alone sets, nor the parameter (40_checksum.md R112). -/
theorem exec_next_refused_conv {i : Instr} {s t : State} (h : exec i s = .next t) :
    t.refused = s.refused ∧ t.conv = s.conv := by
  cases i with
  | push b =>
    rcases execPush_next_cases h with ⟨-, -, rfl⟩ | ⟨-, -, rfl⟩ | ⟨-, -, -, rfl⟩ | ⟨-, -, rfl⟩ | ⟨-, -, rfl⟩ |
      ⟨-, -, rfl⟩ | ⟨-, -, rfl⟩ | ⟨-, -, rfl⟩ | ⟨-, rfl⟩ <;> simp
  | encode c =>
    rcases Nat.lt_or_ge 255 s.port.length with long | fits
    · rw [exec_encode_of_gt long] at h; injection h with h; simp [← h]
    · rw [exec_encode_of_le fits] at h; injection h with h; simp [← h]
  | reset | tblRead _ | crcClr | crcStep _ | validate => injection h with h; simp [← h]

/-- Settles O52: a fault is raised under the earlier one (`exec_next_fault`), no decoded operation writes `refused`, and a
reserved word keeps an earlier refusal. -/
theorem marksAreSticky : Obligations.MarksAreSticky := by
  intro s t h
  rcases step_next_cases h with ⟨-, rfl⟩ | ⟨op, rest, i, -, -, hexec⟩ | ⟨op, rest, e, -, -, rfl⟩
  · exact ⟨fun _ hr => hr, fun _ hr => hr⟩
  · refine ⟨fun r hr => ?_, fun r hr => ?_⟩
    · rw [exec_next_fault hexec, present_fault, hr, Option.some_or]
    · rw [(exec_next_refused_conv hexec).1, present_refused, hr]
  · exact ⟨fun r hr => hr, fun r hr => firstMark_of_some hr _⟩

/-- Settles O54: the table is a function of the parameter, which no operation writes. -/
theorem tableStaysFixed : Obligations.TableStaysFixed := by
  intro s t h
  have hconv : t.conv = s.conv := by
    rcases step_next_cases h with ⟨-, rfl⟩ | ⟨op, rest, i, -, -, hexec⟩ | ⟨op, rest, e, -, -, rfl⟩
    · rfl
    · exact (exec_next_refused_conv hexec).2
    · rfl
  exact ⟨hconv, fun i => by rw [hconv]⟩

/-! ### Steps that complete -/

/-- PUSH stops on a full buffer only (42_assembler.md R153). -/
theorem execPush_completes (b : Byte) {s : State} (hroom : s.buf.length < 260) : ∃ t, execPush b s = .next t := by
  cases hst : stOfCode s.st with
  | none => exact ⟨_, execPush_illegal (stOfCode_eq_none.mp hst) b⟩
  | some a =>
    have hst := stOfCode_eq_some hst
    cases a with
    | sync =>
      rw [execPush_sync hst, pushSync]
      split <;> exact ⟨_, rfl⟩
    | header =>
      rw [execPush_header hst, pushHeader]
      split
      · exact ⟨_, appendBuf_of_lt hroom⟩
      · exact ⟨_, rfl⟩
    | command => exact ⟨_, (execPush_command hst b).trans (appendBuf_of_lt hroom)⟩
    | length => exact ⟨_, (execPush_length hst b).trans (appendBuf_of_lt hroom)⟩
    | data => exact ⟨_, (execPush_data hst b).trans (appendBuf_of_lt hroom)⟩
    | crc => exact ⟨_, (execPush_crc hst b).trans (appendBuf_of_lt hroom)⟩

/-- Every operation completes where the buffer has room; PUSH is the only one that needs it. -/
theorem exec_completes (i : Instr) {s : State} (hroom : s.buf.length < 260) : ∃ t, exec i s = .next t := by
  cases i with
  | push b => exact execPush_completes b hroom
  | encode c =>
    rcases Nat.lt_or_ge 255 s.port.length with long | fits
    · exact ⟨_, exec_encode_of_gt long⟩
    · exact ⟨_, exec_encode_of_le fits⟩
  | reset | tblRead _ | crcClr | crcStep _ | validate => exact ⟨_, rfl⟩

theorem goodState_iff (s : State) : goodState s = true ↔ s.fault = none ∧ s.refused = none := by
  simp [goodState]

/-- Where `st` names an assembler state, the only fault is ENCODE's (41_framecodec.md R126). -/
theorem raisedFault_eq_none_iff {i : Instr} {s : State} (hst : s.st.toNat < 6) :
    raisedFault i s = none ↔ ∀ c, i = .encode c → s.port.length ≤ 255 := by
  cases i <;> simp [raisedFault, hst]

theorem exec_next_good_iff {i : Instr} {s t : State} (hst : s.st.toNat < 6) (h : exec i s = .next t) :
    goodState t = true ↔ goodState s = true ∧ ∀ c, i = .encode c → s.port.length ≤ 255 := by
  rw [goodState_iff, goodState_iff, exec_next_fault h, (exec_next_refused_conv h).1, Option.or_eq_none_iff,
    raisedFault_eq_none_iff hst, and_right_comm]

/-- Settles O60: a decoded operation is `exec_next_good_iff`; a reserved word sets the `refused` mark. -/
theorem stepStaysGoodExactlyOnLegalOperations : Obligations.StepStaysGoodExactlyOnLegalOperations := by
  intro s op rest hs hops
  rw [step_of_cons hops, issue_eq]
  cases hdec : decode op.word with
  | ok i =>
    obtain ⟨t, ht⟩ := exec_completes i (s := present op rest s) (Nat.lt_succ_of_le (buf_length_le_of_invariant hs))
    refine ⟨t, (runWord_of_ok hdec _).trans ht, ?_⟩
    simpa [goodState] using exec_next_good_iff (s := present op rest s) (st_lt_of_invariant hs) ht
  | error e =>
    exact ⟨_, runWord_of_error hdec _, by simp [goodState_iff, firstMark_eq]⟩

end Sys2Proof.Proofs
end

section
/-! PROOFS. Runs of operations from states that meet the invariant: O50, every run from power-on completes. Also the
power-on state (O11) and what RESET leaves of an earlier connection (O13). -/

namespace Sys2Proof.Proofs

open Sys2Proof Sys2Proof.Machine

/-- Settles O11: the fields of `State.reset` as 10_state.md R34 gives them. -/
theorem powerOnValues : Obligations.PowerOnValues :=
  ⟨rfl, rfl, rfl, rfl, rfl, rfl, rfl, rfl, rfl, rfl, rfl, rfl⟩

/-- Settles O13: the six fields `resetBlock` writes have their power-on values, the other six are those named. -/
theorem resetStartsAFreshConnection : Obligations.ResetStartsAFreshConnection := exec_reset

/-- A predicate that every issued operation completes in and keeps is kept by every run, which completes. -/
theorem runOps_completes_of_issue {P : State → Prop}
    (hissue : ∀ (op : Operation) (s : State), P s → ∃ t, issue op s.ops s = .next t ∧ P t)
    (ops : List Operation) {s : State} (hs : P s) : ∃ t, runOps ops s = .next t ∧ P t := by
  induction ops generalizing s with
  | nil => exact ⟨s, runOps_nil s, hs⟩
  | cons op later ih =>
    obtain ⟨u, hu, hPu⟩ := hissue op s hs
    rw [runOps_cons_of_next hu]
    exact ih hPu

/-- What every run from power-on keeps: the invariant, and no fault but ENCODE's. -/
def SafeState (s : State) : Prop := invariantHolds s = true ∧ s.fault ≠ some .illegalState

/-- In a named assembler state no operation raises FAULT_ILLEGAL_STATE (42_assembler.md R147). -/
theorem raisedFault_ne_illegalState {i : Instr} {s : State} (hst : s.st.toNat < 6) :
    raisedFault i s ≠ some .illegalState := by
  cases i <;> simp [raisedFault, hst]

theorem issue_completes_safe (op : Operation) (rest : List Operation) {s : State} (hs : SafeState s) :
    ∃ t, issue op rest s = .next t ∧ SafeState t := by
  obtain ⟨hinv, hfault⟩ := hs
  rw [issue_eq]
  cases hdec : decode op.word with
  | ok i =>
    obtain ⟨t, ht⟩ := exec_completes i (s := present op rest s) (Nat.lt_succ_of_le (buf_length_le_of_invariant hinv))
    refine ⟨t, (runWord_of_ok hdec _).trans ht, exec_keeps_invariant (s := present op rest s) hinv ht, ?_⟩
    rw [exec_next_fault ht]
    have hraised := raisedFault_ne_illegalState (i := i) (s := present op rest s) (st_lt_of_invariant hinv)
    cases hold : (present op rest s).fault with
    | none => rwa [Option.none_or]
    | some r => rwa [Option.some_or, ← hold]
  | error e => exact ⟨_, runWord_of_error hdec _, hinv, hfault⟩

/-- Settles O50: `SafeState` holds at power-on with either table, and every operation completes in it and keeps it. -/
theorem everyRunFromPowerOnCompletes : Obligations.EveryRunFromPowerOnCompletes := by
  intro conv ops
  have hstart : SafeState { State.reset with conv := conv } :=
    ⟨(invariantHolds_sync rfl).mpr rfl, Option.some_ne_none _ |>.symm⟩
  obtain ⟨t, ht, hinv, hfault⟩ :=
    runOps_completes_of_issue (fun op s => issue_completes_safe op s.ops) ops hstart
  exact ⟨t, ht, hinv, st_lt_of_invariant hinv, buf_length_le_of_invariant hinv, hfault⟩

end Sys2Proof.Proofs
end

section
/-! PROOFS. Runs from related states: a relation that every operation keeps is kept by every run, with the same
outcome (`runOps_alike`). For the fields no operation reads (10_state.md R23 to R25) this is O57; for what the host has
still to issue it gives O9, a run may be cut anywhere. -/

namespace Sys2Proof.Proofs

open Sys2Proof Sys2Proof.Machine

/-! ### Outcomes alike up to a relation -/

/-- Both operations complete in related states, or both stop with the same fault. -/
inductive Alike (R : State → State → Prop) :
    Host.Outcome State Fault Refusal → Host.Outcome State Fault Refusal → Prop
  | next {s t : State} (h : R s t) : Alike R (.next s) (.next t)
  | fault (r : Fault) : Alike R (.fault r) (.fault r)

section Relations

variable {R : State → State → Prop}

/-- What `Alike` says of each outcome of the first run. -/
theorem Alike.outcomes {x y : Host.Outcome State Fault Refusal} (h : Alike R x y) :
    (∀ s, x = .next s → ∃ t, y = .next t ∧ R s t) ∧ (∀ r, x = .fault r → y = .fault r) ∧ (∀ r, x ≠ .refused r) := by
  cases h with
  | next h => exact ⟨fun s hs => ⟨_, rfl, by injection hs with hs; exact hs ▸ h⟩, by simp, by simp⟩
  | fault r => exact ⟨by simp, by simp, by simp⟩

/-- Equal buffers have room alike, so a buffer write is as alike as what follows it. -/
theorem appendBuf_alike {b : Byte} {k l : State → State} {s t : State} (hbuf : s.buf = t.buf)
    (h : R (k (setBuf (s.buf ++ [b]) s)) (l (setBuf (t.buf ++ [b]) t))) :
    Alike R (appendBuf b k s) (appendBuf b l t) := by
  rcases appendBuf_cases b k s with ⟨hroom, hs⟩ | ⟨hfull, hs⟩
  · rw [hs, appendBuf_of_lt (hbuf ▸ hroom)]
    exact .next h
  · rw [hs, appendBuf_of_ge (hbuf ▸ hfull)]
    exact .fault _

/-- What a relation must say of two states for a PUSH of `b` to be alike from them: they agree on what selects the arm and
on what the arms test, and each arm's writes (42_assembler.md R141 to R147) give related states. -/
structure PushAlike (R : State → State → Prop) (b : Byte) (s t : State) : Prop where
  st : s.st = t.st
  buf : s.buf = t.buf
  endIdx : s.st = stCode .data → s.endIdx = t.endIdx
  resync : R (resync s) (resync t)
  sync : R (setSt .header (setBuf [b] s)) (setSt .header (setBuf [b] t))
  header : R (setSt .command (setBuf (s.buf ++ [b]) s)) (setSt .command (setBuf (t.buf ++ [b]) t))
  command : R (setSt .length (setCmd b (setBuf (s.buf ++ [b]) s))) (setSt .length (setCmd b (setBuf (t.buf ++ [b]) t)))
  length (n : Nat) : R (recordLength n b (setBuf (s.buf ++ [b]) s)) (recordLength n b (setBuf (t.buf ++ [b]) t))
  data (a : AsmState) : s.st = stCode .data → R (setSt a (setBuf (s.buf ++ [b]) s)) (setSt a (setBuf (t.buf ++ [b]) t))
  crc : R (finishFrame (setBuf (s.buf ++ [b]) s)) (finishFrame (setBuf (t.buf ++ [b]) t))
  illegal : R (raiseFault .illegalState s) (raiseFault .illegalState t)

/-- The two states take the same arm of PUSH, and its tests come out the same. -/
theorem execPush_alike {b : Byte} {s t : State} (h : PushAlike R b s t) :
    Alike R (execPush b s) (execPush b t) := by
  cases hcode : stOfCode s.st with
  | none =>
    have hs := stOfCode_eq_none.mp hcode
    rw [execPush_illegal hs, execPush_illegal (h.st ▸ hs)]
    exact .next h.illegal
  | some a =>
    have hs := stOfCode_eq_some hcode
    have ht := h.st.symm.trans hs
    cases a with
    | sync =>
      rw [execPush_sync hs, execPush_sync ht, pushSync, pushSync]
      split
      · exact .next h.sync
      · exact .next h.resync
    | header =>
      rw [execPush_header hs, execPush_header ht, pushHeader, pushHeader]
      split
      · exact appendBuf_alike h.buf h.header
      · exact .next h.resync
    | command =>
      rw [execPush_command hs, execPush_command ht]
      exact appendBuf_alike h.buf h.command
    | length =>
      rw [execPush_length hs, execPush_length ht, pushLength, pushLength, runningIndex, runningIndex, ← h.buf]
      exact appendBuf_alike h.buf (h.length _)
    | data =>
      rw [execPush_data hs, execPush_data ht, pushData, pushData, runningIndex, runningIndex, ← h.buf, ← h.endIdx hs]
      exact appendBuf_alike h.buf (h.data _ hs)
    | crc =>
      rw [execPush_crc hs, execPush_crc ht]
      exact appendBuf_alike h.buf h.crc

theorem runWord_alike {s t : State} (w : OpWord) (hexec : ∀ i, Alike R (exec i s) (exec i t))
    (hrefuse : R (refuse .reservedOp s) (refuse .reservedOp t)) : Alike R (runWord w s) (runWord w t) := by
  cases hdec : decode w with
  | ok i => rw [runWord_of_ok hdec, runWord_of_ok hdec]; exact hexec i
  | error e => rw [runWord_of_error hdec, runWord_of_error hdec]; exact .next hrefuse

theorem runOps_alike (hissue : ∀ op s t, R s t → Alike R (issue op s.ops s) (issue op t.ops t))
    (ops : List Operation) {s t : State} (hR : R s t) : Alike R (runOps ops s) (runOps ops t) := by
  induction ops generalizing s t with
  | nil => exact .next hR
  | cons op later ih =>
    have h := hissue op s t hR
    rw [runOps, runOps]
    generalize issue op s.ops s = x at h
    generalize issue op t.ops t = y at h
    cases h with
    | next h => exact ih h
    | fault r => exact .fault r

end Relations

/-! ### States that differ in unobservable fields only -/

theorem sameObservable_present {s t : State} (h : sameObservable s t) (op : Operation) (rest : List Operation) :
    sameObservable (present op rest s) (present op rest t) := by
  simp_all [sameObservable]

theorem sameObservable_emit {s t : State} (h : sameObservable s t) (e : Event) :
    sameObservable (emit e s) (emit e t) := by
  simp_all [sameObservable]

theorem sameObservable_setAndReportCrc {s t : State} (h : sameObservable s t) (c : Byte) :
    sameObservable (setAndReportCrc c s) (setAndReportCrc c t) := by
  simp_all [sameObservable]

theorem sameObservable_raiseFault {s t : State} (h : sameObservable s t) (r : FaultMark) :
    sameObservable (raiseFault r s) (raiseFault r t) := by
  simp_all [sameObservable]

theorem sameObservable_refuse {s t : State} (h : sameObservable s t) (r : RefusedMark) :
    sameObservable (refuse r s) (refuse r t) := by
  simp_all [sameObservable]

theorem sameObservable_setBuf {s t : State} (h : sameObservable s t) (f : List Byte) :
    sameObservable (setBuf f s) (setBuf f t) := by
  simp_all [sameObservable]

/-- On the way to a state other than DATA, `end_idx` may differ. -/
theorem sameObservable_setSt {a : AsmState} {s t : State} (h : sameObservable s t) (ha : a ≠ .data) :
    sameObservable (setSt a s) (setSt a t) := by
  have hcode : stCode a ≠ stCode .data := fun h => ha (by simpa using congrArg stOfCode h)
  simp_all [sameObservable]

theorem sameObservable_setSt_of_endIdx {a : AsmState} {s t : State} (h : sameObservable s t)
    (hend : s.endIdx = t.endIdx) : sameObservable (setSt a s) (setSt a t) := by
  simp_all [sameObservable]

theorem sameObservable_setCmd {s t : State} (h : sameObservable s t) (b : Byte) :
    sameObservable (setCmd b s) (setCmd b t) := by
  simp_all [sameObservable]

theorem sameObservable_setPlen {s t : State} (h : sameObservable s t) (b : Byte) :
    sameObservable (setPlen b s) (setPlen b t) := by
  simp_all [sameObservable]

theorem sameObservable_setEndIdx {s t : State} (h : sameObservable s t) (n : Nat) :
    sameObservable (setEndIdx n s) (setEndIdx n t) := by
  simp_all [sameObservable]

theorem sameObservable_resync {s t : State} (h : sameObservable s t) : sameObservable (resync s) (resync t) :=
  sameObservable_setSt (sameObservable_setBuf h []) (by decide)

theorem sameObservable_resetBlock {s t : State} (h : sameObservable s t) :
    sameObservable (resetBlock s) (resetBlock t) := by
  simp_all [sameObservable]

/-- The CRC arm reads the buffer and the table only. -/
theorem sameObservable_finishFrame {s t : State} (h : sameObservable s t) :
    sameObservable (finishFrame s) (finishFrame t) := by
  obtain ⟨-, hbuf, -, -, -, -, hconv, -, -, -⟩ := id h
  rw [finishFrame, finishFrame, ← hbuf, ← hconv]
  exact sameObservable_resync (sameObservable_emit h _)

/-- The LENGTH arm sets `end_idx` whenever it goes to DATA, so what it was before is never read. -/
theorem sameObservable_recordLength {s t : State} (h : sameObservable s t) (n : Nat) (b : Byte) :
    sameObservable (recordLength n b s) (recordLength n b t) := by
  unfold recordLength
  split
  · exact sameObservable_setSt (sameObservable_setPlen h b) (by decide)
  · exact sameObservable_setSt_of_endIdx (sameObservable_setEndIdx (sameObservable_setPlen h b) _) rfl

/-! ### Operations from such states -/

/-- Each arm of PUSH: only DATA reads `end_idx`, and there the two states agree on it; none reads `cmd` or `plen`. -/
theorem pushAlike_of_sameObservable (b : Byte) {s t : State} (h : sameObservable s t) :
    PushAlike sameObservable b s t := by
  obtain ⟨hst, hbuf, -, -, -, -, -, -, -, hend⟩ := id h
  have happend : sameObservable (setBuf (s.buf ++ [b]) s) (setBuf (t.buf ++ [b]) t) :=
    hbuf ▸ sameObservable_setBuf h (s.buf ++ [b])
  exact {
    st := hst
    buf := hbuf
    endIdx := hend
    resync := sameObservable_resync h
    sync := sameObservable_setSt (sameObservable_setBuf h [b]) (by decide)
    header := sameObservable_setSt happend (by decide)
    command := sameObservable_setSt (sameObservable_setCmd happend b) (by decide)
    length := fun n => sameObservable_recordLength happend n b
    data := fun _ hs => sameObservable_setSt_of_endIdx happend (hend hs)
    crc := sameObservable_finishFrame happend
    illegal := sameObservable_raiseFault h _ }

theorem exec_alike_of_sameObservable (i : Instr) {s t : State} (h : sameObservable s t) :
    Alike sameObservable (exec i s) (exec i t) := by
  obtain ⟨-, -, hcrc, -, -, -, hconv, hport, -, -⟩ := id h
  cases i with
  | reset => exact .next (sameObservable_resetBlock h)
  | push b => exact execPush_alike (pushAlike_of_sameObservable b h)
  | tblRead x =>
    rw [exec_tblRead, exec_tblRead, ← hconv]
    exact .next (sameObservable_emit h _)
  | crcClr => exact .next (sameObservable_setAndReportCrc h _)
  | crcStep b =>
    rw [exec_crcStep, exec_crcStep, ← hconv, ← hcrc]
    exact .next (sameObservable_setAndReportCrc h _)
  | validate =>
    rw [exec_validate, exec_validate, ← hconv, ← hport]
    exact .next (sameObservable_emit h _)
  | encode c =>
    rcases Nat.lt_or_ge 255 s.port.length with long | fits
    · rw [exec_encode_of_gt long, exec_encode_of_gt (hport ▸ long)]
      exact .next (sameObservable_raiseFault h _)
    · obtain ⟨f, built⟩ : ∃ f, buildFrame s.conv c s.port = some f := ⟨_, buildFrame_of_le s.conv c fits⟩
      rw [exec_encode_of_some built, exec_encode_of_some (hconv ▸ hport ▸ built)]
      exact .next (sameObservable_emit h _)

theorem issue_alike_of_sameObservable (op : Operation) (s t : State) (h : sameObservable s t) :
    Alike sameObservable (issue op s.ops s) (issue op t.ops t) := by
  have hops : s.ops = t.ops := by simp_all [sameObservable]
  have hpresent := sameObservable_present h op s.ops
  rw [issue_eq, issue_eq, ← hops]
  exact runWord_alike op.word (fun i => exec_alike_of_sameObservable i hpresent)
    (sameObservable_refuse hpresent .reservedOp)

/-- Settles O57: `sameObservable` is kept by every operation, so by every run. -/
theorem staleFieldsAreUnobservable : Obligations.StaleFieldsAreUnobservable :=
  fun ops _ _ h => (runOps_alike issue_alike_of_sameObservable ops h).outcomes

/-! ### States that differ in the host's list only -/

/-- The host has `queue` still to issue, and nothing else changes. -/
def withQueue (queue : List Operation) (s : State) : State := { s with ops := queue }

/-- The two states differ in the host's list only, which is `queue` in the second. -/
def Requeued (queue : List Operation) (s t : State) : Prop := t = withQueue queue s

theorem pushAlike_of_requeued (queue : List Operation) (b : Byte) (s : State) :
    PushAlike (Requeued queue) b s (withQueue queue s) where
  st := rfl
  buf := rfl
  endIdx _ := rfl
  resync := rfl
  sync := rfl
  header := rfl
  command := rfl
  length n := by unfold Requeued recordLength; split <;> rfl
  data _ _ := rfl
  crc := rfl
  illegal := rfl

/-- No operation reads what the host has still to issue (20_memory.md R48), and none writes it. -/
theorem exec_alike_of_requeued (queue : List Operation) (i : Instr) (s : State) :
    Alike (Requeued queue) (exec i s) (exec i (withQueue queue s)) := by
  cases i with
  | push b => exact execPush_alike (pushAlike_of_requeued queue b s)
  | encode c =>
    rcases Nat.lt_or_ge 255 s.port.length with long | fits
    · rw [exec_encode_of_gt long, exec_encode_of_gt (s := withQueue queue s) long]
      exact .next rfl
    · rw [exec_encode_of_le fits, exec_encode_of_le (s := withQueue queue s) fits]
      exact .next rfl
  | reset | tblRead _ | crcClr | crcStep _ | validate => exact .next rfl

theorem issue_alike_of_requeued (queue : List Operation) (op : Operation) (s t : State) (h : Requeued queue s t) :
    Alike (Requeued queue) (issue op s.ops s) (issue op t.ops t) := by
  subst h
  exact runWord_alike op.word (fun i => exec_alike_of_requeued queue i (present op s.ops s)) rfl

/-! ### Runs cut in two -/

theorem issue_next_ops {op : Operation} {rest : List Operation} {s t : State} (h : issue op rest s = .next t) :
    t.ops = rest := by
  rw [issue_eq] at h
  cases hdec : decode op.word with
  | ok i =>
    rw [runWord_of_ok hdec] at h
    exact exec_next_ops h
  | error e =>
    rw [runWord_of_error hdec] at h
    injection h with h
    simp [← h]

theorem runOps_next_ops {ops : List Operation} {s t : State} (h : runOps ops s = .next t) : t.ops = s.ops := by
  induction ops generalizing s with
  | nil => injection h with h; rw [h]
  | cons op later ih =>
    obtain ⟨u, hu, hlater⟩ := runOps_cons_next h
    rw [ih hlater, issue_next_ops hu]

theorem runOps_append_of_next {first : List Operation} (later : List Operation) {s t : State}
    (h : runOps first s = .next t) : runOps (first ++ later) s = runOps later t := by
  induction first generalizing s with
  | nil => injection h with h; rw [List.nil_append, h]
  | cons op rest ih =>
    obtain ⟨u, hu, hrest⟩ := runOps_cons_next h
    rw [List.cons_append, runOps_cons_of_next hu, ih hrest]

/-- The first operation of a run brings its own sequence to the frame port (30_encoding.md R67), so what an earlier one
left there is not seen. -/
theorem runOps_port_irrelevant {later : List Operation} (hne : later ≠ []) (t : State) (port : List Byte)
    (queue : List Operation) :
    runOps later { t with port := port, ops := queue } = runOps later (withQueue queue t) := by
  cases later with
  | nil => exact absurd rfl hne
  | cons op rest => rfl

/-- Settles O9: the run of `later` from `t` and the one from `t` with another port and another queue are alike up to the
queue. -/
theorem runsCompose : Obligations.RunsCompose := by
  intro first later s t port queue hfirst hne
  have hops := runOps_next_ops hfirst
  obtain ⟨hnext, hfault, hrefused⟩ :=
    (runOps_alike (issue_alike_of_requeued queue) later (s := t) (t := withQueue queue t) rfl).outcomes
  rw [runOps_append_of_next later hfirst, runOps_port_irrelevant hne t port queue]
  refine ⟨hops, fun u hu => ?_, hfault, hrefused⟩
  obtain ⟨_, hu', rfl⟩ := hnext u hu
  exact ⟨(runOps_next_ops hu).trans hops, hu'⟩

end Sys2Proof.Proofs
end

section
/-! PROOFS. One step and the operation it takes: what a step of a decoded operation is (O5), steps against runs of the
host's operations (O8), and a step of one block among several (O10). -/

namespace Sys2Proof.Proofs

open Sys2Proof Sys2Proof.Machine

/-- Settles O5: a step with an operation issued is `issue`, whose word decodes to `i`. -/
theorem stepRunsTheDecodedOperation : Obligations.StepRunsTheDecodedOperation := by
  intro s op rest i hops hdec _
  calc step s = runWord op.word (present op rest s) := (step_of_cons hops).trans (issue_eq op rest s)
    _ = exec i (present op rest s) := runWord_of_ok hdec _

/-! ### Steps in issue order -/

theorem step_next_ops {op : Operation} {queue : List Operation} {s t : State} (hops : s.ops = op :: queue)
    (h : step s = .next t) : t.ops = queue :=
  issue_next_ops ((step_of_cons hops).symm.trans h)

/-- A step takes the operation as a run does from the state with another list: the outcomes differ in that list only. -/
theorem step_alike_issue {op : Operation} {queue : List Operation} {s : State} (hops : s.ops = op :: queue)
    (rest : List Operation) :
    Alike (Requeued rest) (step s) (issue op (withQueue rest s).ops (withQueue rest s)) := by
  rw [step_of_cons hops]
  exact issue_alike_of_requeued rest op (withQueue queue s) (withQueue rest s) rfl

/-- After the first operation the steps go on with the others at the head of the host's list, and the run with `rest`
there (`step_alike_issue`). -/
theorem runSteps_eq_runOps {issued rest : List Operation} {s : State} (hops : s.ops = issued ++ rest) :
    runSteps issued.length s = runOps issued (withQueue rest s) := by
  induction issued generalizing s with
  | nil =>
    rw [List.nil_append] at hops
    subst hops
    rfl
  | cons op later ih =>
    have hnext := fun t => step_next_ops (t := t) hops
    have halike := step_alike_issue hops rest
    rw [List.length_cons, runSteps, runOps]
    generalize step s = x at hnext halike
    generalize issue op (withQueue rest s).ops (withQueue rest s) = y at halike
    cases halike with
    | @next t _ hqueue =>
      subst hqueue
      exact ih (hnext t rfl)
    | fault r => rfl

/-- Settles O8: `runSteps_eq_runOps`, with `withQueue` the state the statement writes out. -/
theorem stepsTakeOperationsInIssueOrder : Obligations.StepsTakeOperationsInIssueOrder :=
  fun _ _ _ => runSteps_eq_runOps

/-! ### Several blocks -/

theorem stepBlock_next_iff {n : Nat} {k : Fin n} {blocks after : Vector State n} :
    stepBlock k blocks = .next after ↔ ∃ t, step blocks[k] = .next t ∧ after = blocks.set k t := by
  unfold stepBlock
  cases step blocks[k] with
  | next t => simp [eq_comm]
  | fault r => simp
  | refused r => simp

theorem set_block_self {n : Nat} (k : Fin n) (blocks : Vector State n) (t : State) :
    (blocks.set k t)[k] = t := Vector.getElem_set_self _

theorem set_block_other {n : Nat} {j k : Fin n} (hjk : j ≠ k) (blocks : Vector State n) (t : State) :
    (blocks.set k t)[j] = blocks[j] :=
  Vector.getElem_set_ne _ _ fun h => hjk (Fin.ext h.symm)

/-- Settles O10: what a step of block `k` leaves is the vector with entry `k` replaced by that block's next state. -/
theorem blocksAreIndependent : Obligations.BlocksAreIndependent := by
  intro n k blocks
  refine ⟨fun t ht => ?_, fun after hafter => ?_⟩
  · exact ⟨blocks.set k t, stepBlock_next_iff.mpr ⟨t, ht, rfl⟩, set_block_self k blocks t,
      fun j hjk => set_block_other hjk blocks t⟩
  · obtain ⟨t, ht, rfl⟩ := stepBlock_next_iff.mp hafter
    rw [set_block_self]
    exact ⟨ht, fun j hjk => set_block_other hjk blocks t⟩

end Sys2Proof.Proofs
end

section
/-! PROOFS. What an operation does to the block's storage: a PUSH past the end of BUF (O40, 20_memory.md R40, R46), and
which operations write the assembler and `crc_acc` (O55, 20_memory.md R45). -/

namespace Sys2Proof.Proofs

open Sys2Proof Sys2Proof.Machine

/-! ### PUSH into a full buffer -/

/-- A PUSH of `b` appends to the buffer in every arm but SYNC's and, unless `b` is the header byte, HEADER's
(42_assembler.md R141 to R146). -/
def PushAppends (b : Byte) (s : State) : Prop :=
  (s.st = stCode .header ∧ b = 0x55) ∨ s.st = stCode .command ∨ s.st = stCode .length ∨ s.st = stCode .data ∨
    s.st = stCode .crc

theorem execPush_stops_of_full {b : Byte} {s : State} (hfull : 260 ≤ s.buf.length) (happends : PushAppends b s) :
    execPush b s = .fault .bufIndexOutOfRange := by
  rcases happends with ⟨hst, rfl⟩ | hst | hst | hst | hst
  · rw [execPush_header hst, pushHeader, if_pos rfl]
    exact appendBuf_of_ge hfull
  · exact (execPush_command hst b).trans (appendBuf_of_ge hfull)
  · exact (execPush_length hst b).trans (appendBuf_of_ge hfull)
  · exact (execPush_data hst b).trans (appendBuf_of_ge hfull)
  · exact (execPush_crc hst b).trans (appendBuf_of_ge hfull)

/-- A PUSH that appends nothing needs no room. -/
theorem execPush_completes_of_not_appends {b : Byte} {s : State} (hno : ¬ PushAppends b s) :
    ∃ t, execPush b s = .next t := by
  cases hst : stOfCode s.st with
  | none => exact ⟨_, execPush_illegal (stOfCode_eq_none.mp hst) b⟩
  | some a =>
    have hst := stOfCode_eq_some hst
    cases a with
    | sync =>
      rw [execPush_sync hst, pushSync]
      split <;> exact ⟨_, rfl⟩
    | header =>
      have hb : b ≠ 0x55 := fun hb => hno (.inl ⟨hst, hb⟩)
      exact ⟨_, (execPush_header hst b).trans (if_neg hb)⟩
    | command | length | data | crc => exact absurd (by simp [PushAppends, hst]) hno

/-- Settles O40: the arms that append stop at a full buffer, the others do not read its length. -/
theorem pushPastTheBufferStops : Obligations.PushPastTheBufferStops :=
  fun _ _ hfull => ⟨execPush_stops_of_full hfull, execPush_completes_of_not_appends⟩

/-! ### Who writes what -/

theorem execPush_next_crcAcc {b : Byte} {s t : State} (h : execPush b s = .next t) : t.crcAcc = s.crcAcc := by
  rcases execPush_next_cases h with ⟨-, -, rfl⟩ | ⟨-, -, rfl⟩ | ⟨-, -, -, rfl⟩ | ⟨-, -, rfl⟩ | ⟨-, -, rfl⟩ |
    ⟨-, -, rfl⟩ | ⟨-, -, rfl⟩ | ⟨-, -, rfl⟩ | ⟨-, rfl⟩ <;> simp

/-- Only CRC_CLR, CRC_STEP and RESET write `crc_acc` (40_checksum.md R111). -/
theorem exec_next_crcAcc {i : Instr} {s t : State} (hclr : i ≠ .crcClr) (hstep : ∀ b, i ≠ .crcStep b)
    (hreset : i ≠ .reset) (h : exec i s = .next t) : t.crcAcc = s.crcAcc := by
  cases i with
  | reset => exact absurd rfl hreset
  | crcClr => exact absurd rfl hclr
  | crcStep b => exact absurd rfl (hstep b)
  | push b => exact execPush_next_crcAcc h
  | encode c =>
    rcases Nat.lt_or_ge 255 s.port.length with long | fits
    · rw [exec_encode_of_gt long] at h; injection h with h; simp [← h]
    · rw [exec_encode_of_le fits] at h; injection h with h; simp [← h]
  | tblRead _ | validate => injection h with h; simp [← h]

/-- Settles O55: the assembler by `exec_next_sameAssembler`, the accumulator by `exec_next_crcAcc`. -/
theorem eachOperationWritesItsOwnUnit : Obligations.EachOperationWritesItsOwnUnit :=
  fun _ _ _ h => ⟨fun hpush hreset => exec_next_sameAssembler hpush hreset h,
    fun hclr hstep hreset => exec_next_crcAcc hclr hstep hreset h⟩

end Sys2Proof.Proofs
end

section
/-! PROOFS. Operation words: decoding undoes encoding (O3), every word is an operation's or reserved (O4), what a reserved
word does (O6), and the rows of the opcode map and the words the spec prints (O1, O2). -/

namespace Sys2Proof.Proofs

open Sys2Proof Sys2Proof.Machine

/-! ### The kinds of operation words -/

/-- The kinds of 12-bit words that 30_encoding.md R68 and R70 name: an operation's word, a word whose `op` is not assigned,
and a word whose `d` should be 0 and is not. -/
inductive WordKind : OpWord → Prop
  | operation (i : Instr) : WordKind (encode i)
  | reservedOpcode {op : BitVec 4} (d : Byte) (hop : 7 ≤ op.toNat) : WordKind (opWord op d)
  | nonzeroOperand {op : BitVec 4} {d : Byte} (hop : op = 0x0 ∨ op = 0x3 ∨ op = 0x5) (hd : d ≠ 0) :
      WordKind (opWord op d)

/-- An opcode with no operand has one good word; all its others are reserved. -/
theorem wordKind_of_noOperand {i : Instr} {op : BitVec 4} (hop : op = 0x0 ∨ op = 0x3 ∨ op = 0x5)
    (hi : encode i = opWord op 0x00) (d : Byte) : WordKind (opWord op d) := by
  by_cases hd : d = 0
  · rw [hd, ← hi]
    exact .operation i
  · exact .nonzeroOperand hop hd

/-- Every word is of one of the kinds (R75): one row of R68 after another, then the opcodes from 7 on. -/
theorem wordKind_opWord (op : BitVec 4) (d : Byte) : WordKind (opWord op d) := by
  rcases Nat.lt_or_ge op.toNat 7 with assigned | reserved
  · have rows : op = 0x0 ∨ op = 0x1 ∨ op = 0x2 ∨ op = 0x3 ∨ op = 0x4 ∨ op = 0x5 ∨ op = 0x6 := by bv_omega
    rcases rows with rfl | rfl | rfl | rfl | rfl | rfl | rfl
    · exact wordKind_of_noOperand (i := .reset) (by decide) rfl d
    · exact .operation (.push d)
    · exact .operation (.tblRead d)
    · exact wordKind_of_noOperand (i := .crcClr) (by decide) rfl d
    · exact .operation (.crcStep d)
    · exact wordKind_of_noOperand (i := .validate) (by decide) rfl d
    · exact .operation (.encode d)
  · exact .reservedOpcode d reserved

theorem wordKind (w : OpWord) : WordKind w := opWord_fields w ▸ wordKind_opWord (opField w) (dField w)

/-! ### The decoder on each kind -/

theorem decode_encode (i : Instr) : decode (encode i) = .ok i := by
  cases i <;> simp [encode, decode_opWord]

theorem decode_of_reservedOpcode {op : BitVec 4} (hop : 7 ≤ op.toNat) (d : Byte) :
    decode (opWord op d) = .error (.reservedOpcode op) := by
  rw [decode_opWord]
  split
  case h_8 => rfl
  all_goals omega

theorem decode_of_nonzeroOperand {op : BitVec 4} {d : Byte} (hop : op = 0x0 ∨ op = 0x3 ∨ op = 0x5) (hd : d ≠ 0) :
    decode (opWord op d) = .error (.nonzeroOperand op d) := by
  rw [decode_opWord]
  rcases hop with rfl | rfl | rfl <;> exact if_neg hd

/-- Settles O3: a reserved word decodes to nothing, and an operation's word to that operation only. -/
theorem decodeInvertsEncode : Obligations.DecodeInvertsEncode := by
  refine ⟨fun i _ => decode_encode i, fun w i h => ?_⟩
  cases wordKind w with
  | operation j =>
    rw [decode_encode] at h
    injection h with h
    rw [h]
  | reservedOpcode d hop => simp [decode_of_reservedOpcode hop] at h
  | nonzeroOperand hop hd => simp [decode_of_nonzeroOperand hop hd] at h

/-! ### Well-formed words -/

/-- The negation of `wellFormedWord`, in R70's numbers. -/
theorem wellFormedWord_eq_false_iff (w : OpWord) :
    wellFormedWord w = false ↔
      7 ≤ w.toNat / 256 ∨
        ((w.toNat / 256 = 0 ∨ w.toNat / 256 = 3 ∨ w.toNat / 256 = 5) ∧ w.toNat % 256 ≠ 0) := by
  rw [wellFormedWord, Bool.and_eq_false_iff, opcodeAssigned, operandAllowed, decide_eq_false_iff_not]
  split <;> simp <;> omega

theorem wellFormedWord_opWord_eq_false_iff (op : BitVec 4) (d : Byte) :
    wellFormedWord (opWord op d) = false ↔ 7 ≤ op.toNat ∨ ((op = 0x0 ∨ op = 0x3 ∨ op = 0x5) ∧ d ≠ 0) := by
  rw [wellFormedWord_eq_false_iff, ← opField_toNat, ← dField_toNat, opField_opWord, dField_opWord]
  bv_omega

theorem wellFormedWord_encode (i : Instr) : wellFormedWord (encode i) = true := by
  rw [← Bool.not_eq_false]
  cases i <;> simp [encode, wellFormedWord_opWord_eq_false_iff]

/-- Settles O4: `wellFormedWord` and `decode` on each kind of word. -/
theorem everyWordIsAnOperationOrReserved : Obligations.EveryWordIsAnOperationOrReserved := by
  intro w
  cases wordKind w with
  | operation i => exact .inl ⟨wellFormedWord_encode i, i, decode_encode i, rfl⟩
  | @reservedOpcode op d hop =>
    exact .inr ⟨(wellFormedWord_opWord_eq_false_iff op d).mpr (.inl hop), _, decode_of_reservedOpcode hop d⟩
  | @nonzeroOperand op d hop hd =>
    exact .inr ⟨(wellFormedWord_opWord_eq_false_iff op d).mpr (.inr ⟨hop, hd⟩), _, decode_of_nonzeroOperand hop hd⟩

/-! ### Reserved words -/

/-- Settles O6: the word is not well formed, so it does not decode, and such a step is `refuse`. -/
theorem reservedWordIsRefused : Obligations.ReservedWordIsRefused := by
  intro s op rest hops hreserved
  have hbad := (wellFormedWord_eq_false_iff op.word).mpr hreserved
  rcases everyWordIsAnOperationOrReserved op.word with ⟨hgood, -⟩ | ⟨-, e, hdec⟩
  · simp [hbad] at hgood
  · calc step s = .next (refuse .reservedOp (present op rest s)) := by
          rw [step_of_cons hops, issue_eq, runWord_of_error hdec]
      _ = _ := by rw [refuse, firstMark_eq_or, Option.or_some]; rfl

/-! ### The opcode map -/

/-- Settles O1: each row is an instruction's word or a reserved word, given by its fields. -/
theorem opcodeMapDecodesEveryRow : Obligations.OpcodeMapDecodesEveryRow :=
  ⟨decode_encode .reset, fun d => decode_encode (.push d), fun d => decode_encode (.tblRead d), decode_encode .crcClr,
    fun d => decode_encode (.crcStep d), decode_encode .validate, fun d => decode_encode (.encode d),
    fun _ d hop => decode_of_reservedOpcode hop d, fun _ _ => decode_of_nonzeroOperand⟩

/-- Settles O2: each printed word is in a row of the opcode map. -/
theorem printedWordsDecode : Obligations.PrintedWordsDecode := by
  obtain ⟨hreset, hpush, htblRead, hcrcClr, hcrcStep, hvalidate, hencode, hreserved, hnonzero⟩ :=
    opcodeMapDecodesEveryRow
  exact ⟨hreset, hpush 0xAA, htblRead 0xFF, hcrcClr, hcrcStep 0x31, hvalidate, hencode 0x01,
    hreserved 0x7 0x00 (by decide), hreserved 0xF 0x12 (by decide), hnonzero 0x0 0x01 (by decide) (by decide),
    hnonzero 0x3 0xFF (by decide) (by decide), hnonzero 0x5 0x01 (by decide) (by decide)⟩

end Sys2Proof.Proofs
end

section
/-! PROOFS. The pseudo-operations (O24, 30_encoding.md R73) and the frame format (O28, R60). -/

namespace Sys2Proof.Proofs

open Sys2Proof Sys2Proof.Machine

/-! ### The run of CRC8 -/

/-- The events of `CRC8` on `bytes`: the CRC of each run of first bytes, from none to all. -/
def crcTrace (conv : TableConv) (bytes : List Byte) : List Event :=
  (List.range (bytes.length + 1)).map fun k => .crc (crc8 conv (bytes.take k))

theorem crc8_concat (conv : TableConv) (bytes : List Byte) (b : Byte) :
    crc8 conv (bytes ++ [b]) = crcFold conv (crc8 conv bytes) b := crc8_append conv bytes [b]

theorem crcTrace_concat (conv : TableConv) (bytes : List Byte) (b : Byte) :
    crcTrace conv (bytes ++ [b]) = crcTrace conv bytes ++ [.crc (crc8 conv (bytes ++ [b]))] := by
  rw [crcTrace, List.length_append, List.length_singleton, List.range_succ, List.map_append, crcTrace]
  congr 1
  · refine List.map_congr_left fun k hk => ?_
    rw [List.take_append_of_le_length (Nat.le_of_lt_succ (List.mem_range.mp hk))]
  · rw [List.map_singleton, List.take_of_length_le (by simp)]

theorem pseudoOperations_crc8_concat (bytes : List Byte) (b : Byte) :
    pseudoOperations (.crc8 (bytes ++ [b])) = pseudoOperations (.crc8 bytes) ++ [operationOf (.crcStep b) []] := by
  simp [pseudoOperations, expandPseudo]

/-- By induction on the last byte: one more CRC_STEP folds it into the CRC of the others and reports the result. -/
theorem runOps_crc8 (bytes : List Byte) (s : State) :
    runOps (pseudoOperations (.crc8 bytes)) s =
      .next { s with
        crcAcc := crc8 s.conv bytes
        out := s.out ++ crcTrace s.conv bytes
        port := [] } := by
  induction bytes using List.reverseRecOn with
  | nil => exact runOps_cons_of_next (issue_operationOf .crcClr [] s.ops s)
  | append_singleton bytes b ih =>
    rw [pseudoOperations_crc8_concat, runOps_append_of_next _ ih, crcTrace_concat, ← List.append_assoc, crc8_concat]
    exact runOps_cons_of_next (issue_operationOf (.crcStep b) [] _ _)

/-- Settles O24: the expansions are `expandPseudo`'s own, the run is `runOps_crc8`. -/
theorem pseudoOperationsExpand : Obligations.PseudoOperationsExpand :=
  ⟨fun _ => rfl, fun _ => rfl, runOps_crc8⟩

/-! ### The fields of a frame -/

section Frame

variable (x y c l k : Byte) (p : List Byte)

theorem frame_payload : slice ([x, y, c, l] ++ p ++ [k]) 4 (3 + p.length) = p := by
  simp [slice, Nat.add_comm 3]

theorem frame_covered : slice ([x, y, c, l] ++ p ++ [k]) 2 (3 + p.length) = [c, l] ++ p := by
  simp [slice, Nat.add_comm 3]

theorem frame_crc : ([x, y, c, l] ++ p ++ [k])[4 + p.length]? = some k := by
  simp [Nat.add_comm 4]

end Frame

/-- Settles O28: the frame of a payload that fits, its fields read by offset. -/
theorem builtFrameHasTheFrameFormat : Obligations.BuiltFrameHasTheFrameFormat := by
  intro conv c p hp
  refine ⟨_, buildFrame_of_le conv c hp, ?_, rfl, rfl, rfl, ?_, frame_payload .., ?_⟩
  · simp [Nat.add_comm 5]
  · have fits : (BitVec.ofNat 8 p.length).toNat = p.length :=
      (BitVec.toNat_ofNat ..).trans (Nat.mod_eq_of_lt (by omega))
    exact congrArg some fits
  · rw [frame_crc, frame_covered]

end Sys2Proof.Proofs
end

section
/-! PROOFS. The CRC table: it is the generator's output (O14, 40_checksum.md R101), its printed values (O15, R102, R103),
and its properties (O16, R104), which it has because each step of the generator has them. -/

namespace Sys2Proof.Proofs

open Sys2Proof Sys2Proof.Machine

/-! ### The table and the generator -/

theorem crcTable_eq_map_gen (conv : TableConv) :
    crcTable conv = (List.range 256).map fun n => gen conv (BitVec.ofNat 8 n) := by
  cases conv <;> decide +kernel

theorem tableRead_eq_gen (conv : TableConv) (i : Byte) : tableRead conv i = gen conv i := by
  rw [tableRead, crcTable_eq_map_gen, List.getD_eq_getElem _ _ (by simpa using i.isLt), List.getElem_map,
    List.getElem_range, BitVec.ofNat_toNat, BitVec.setWidth_eq]

/-- Settles O14: `tableRead_eq_gen`, with the generator's eight steps as an iteration. -/
theorem tableIsTheGeneratorsOutput : Obligations.TableIsTheGeneratorsOutput :=
  ⟨tableRead_eq_gen .msbFirst, tableRead_eq_gen .reflected⟩

/-- Settles O15: both tables and the CRC on fixed inputs. -/
theorem tableSpotValues : Obligations.TableSpotValues := by
  unfold Obligations.TableSpotValues
  decide

/-! ### A generator step -/

/-- An exclusive OR with `k` that is made or not by a bit is linear in the bit and the value together. -/
theorem xorIf_xor (p q : Bool) (x y k : Byte) :
    (if p ^^ q then (x ^^^ y) ^^^ k else x ^^^ y) = (if p then x ^^^ k else x) ^^^ (if q then y ^^^ k else y) := by
  cases p <;> cases q
  case false.false => rfl
  case false.true => exact BitVec.xor_assoc x y k
  case true.false => exact show (x ^^^ y) ^^^ k = (x ^^^ k) ^^^ y by ac_rfl
  case true.true =>
    calc x ^^^ y = (x ^^^ y) ^^^ (k ^^^ k) := by rw [BitVec.xor_self, BitVec.xor_zero]
      _ = (x ^^^ k) ^^^ (y ^^^ k) := by ac_rfl

theorem genStep_xor (conv : TableConv) (a b : Byte) :
    genStep conv (a ^^^ b) = genStep conv a ^^^ genStep conv b := by
  cases conv with
  | msbFirst =>
    rw [genStep, genStepMsbFirst, BitVec.getLsbD_xor, BitVec.shiftLeft_xor_distrib]
    exact xorIf_xor ..
  | reflected =>
    rw [genStep, genStepReflected, BitVec.getLsbD_xor, BitVec.ushiftRight_xor_distrib]
    exact xorIf_xor ..

/-- A step loses no bit: the bit it shifts out decides whether the polynomial is added, and with it the bit at the other
end, where the shift brings in 0. -/
theorem genStep_eq_zero {conv : TableConv} {c : Byte} (h : genStep conv c = 0x00) : c = 0x00 := by
  revert h
  revert c
  cases conv <;> decide

theorem genStep_injective (conv : TableConv) : Function.Injective (genStep conv) := by
  intro a b h
  have hzero : genStep conv (a ^^^ b) = 0x00 := (genStep_xor conv a b).trans (h ▸ BitVec.xor_self)
  exact BitVec.xor_eq_zero_iff.mp (genStep_eq_zero hzero)

/-! ### The table's properties -/

theorem tableRead_xor (conv : TableConv) (a b : Byte) :
    tableRead conv (a ^^^ b) = tableRead conv a ^^^ tableRead conv b := by
  simp only [tableRead_eq_gen, gen, repeatEight, genStep_xor]

theorem tableRead_injective (conv : TableConv) : Function.Injective (tableRead conv) := by
  have height : tableRead conv = (genStep conv)^[8] := funext (tableRead_eq_gen conv)
  rw [height]
  exact (genStep_injective conv).iterate 8

theorem tableRead_zero (conv : TableConv) : tableRead conv 0x00 = 0x00 := by
  simpa using tableRead_xor conv 0x00 0x00

theorem tableRead_eq_zero_iff (conv : TableConv) (i : Byte) : tableRead conv i = 0x00 ↔ i = 0x00 :=
  ⟨fun h => tableRead_injective conv (h.trans (tableRead_zero conv).symm), fun h => h ▸ tableRead_zero conv⟩

/-- Settles O16: the generator's eight steps are each linear and injective, and an injective map of the finitely many
bytes is a bijection. -/
theorem tableIsALinearPermutation : Obligations.TableIsALinearPermutation :=
  fun conv => ⟨tableRead_zero conv, tableRead_xor conv, Finite.injective_iff_bijective.mp (tableRead_injective conv)⟩

end Sys2Proof.Proofs
end

section
/-! PROOFS. The CRC as a fold: the rule's corner cases (O17, 40_checksum.md R105), the bit-serial form (O18, R106), linearity
(O20), and the self-check with what it says of the validator (O19, R107). -/

namespace Sys2Proof.Proofs

open Sys2Proof Sys2Proof.Machine

/-! ### The fold -/

theorem crc8_replicate_zero (conv : TableConv) (k : Nat) : crc8 conv (List.replicate k 0x00) = 0x00 := by
  induction k with
  | zero => rfl
  | succ k ih =>
    calc crc8 conv (List.replicate (k + 1) 0x00) = crcFold conv (crc8 conv (List.replicate k 0x00)) 0x00 := by
          rw [List.replicate_succ', crc8_concat]
      _ = tableRead conv 0x00 := by rw [ih]; rfl
      _ = 0x00 := tableRead_zero conv

/-- Settles O17: leading zero bytes bring the fold back to where it starts. -/
theorem crcIsATableFold : Obligations.CrcIsATableFold := by
  refine fun conv => ⟨crc8_nil conv, crc8_replicate_zero conv 1, crc8_concat conv, fun k s => ?_⟩
  rw [crc8_append, crc8_replicate_zero]
  rfl

/-- One byte of the table form is one byte of the bit-serial form: the table entry is the generator's output. -/
theorem crcFold_msbFirst : crcFold .msbFirst = crcBitwiseFold :=
  funext₂ fun c b => tableRead_eq_gen .msbFirst (c ^^^ b)

/-- Settles O18: the two folds have the same step. -/
theorem crcEqualsItsBitSerialForm : Obligations.CrcEqualsItsBitSerialForm := by
  intro s
  have hserial : crc8 .msbFirst s = crc8Bitwise s := by rw [crc8, crcFold_msbFirst]; rfl
  exact ⟨hserial, hserial⟩

/-! ### Linearity -/

theorem crcFold_xor (conv : TableConv) (c d a b : Byte) :
    crcFold conv (c ^^^ d) (a ^^^ b) = crcFold conv c a ^^^ crcFold conv d b :=
  calc tableRead conv ((c ^^^ d) ^^^ (a ^^^ b)) = tableRead conv ((c ^^^ a) ^^^ (d ^^^ b)) :=
        congrArg (tableRead conv) (by ac_rfl)
    _ = tableRead conv (c ^^^ a) ^^^ tableRead conv (d ^^^ b) := tableRead_xor ..

/-- The fold is linear in the register and the bytes together. -/
theorem foldl_crcFold_zipWith_xor (conv : TableConv) {s t : List Byte} (hlen : s.length = t.length) (c d : Byte) :
    (List.zipWith (· ^^^ ·) s t).foldl (crcFold conv) (c ^^^ d) =
      s.foldl (crcFold conv) c ^^^ t.foldl (crcFold conv) d := by
  induction s generalizing t c d with
  | nil =>
    rw [List.eq_nil_of_length_eq_zero hlen.symm]
    rfl
  | cons a s ih =>
    obtain ⟨b, t, rfl⟩ := List.exists_cons_of_length_eq_add_one hlen.symm
    rw [List.zipWith_cons_cons, List.foldl_cons, crcFold_xor]
    exact ih (Nat.succ.inj hlen) _ _

/-- Settles O20: both CRCs start from 0, which is the exclusive OR of 0 with itself. -/
theorem crcIsLinear : Obligations.CrcIsLinear :=
  fun conv _ _ hlen => foldl_crcFold_zipWith_xor conv hlen Config.crcInit Config.crcInit

/-! ### The self-check -/

/-- The last byte brings the CRC to 0 exactly when it is the CRC of the bytes before it. -/
theorem crc8_concat_eq_zero_iff (conv : TableConv) (s : List Byte) (k : Byte) :
    crc8 conv (s ++ [k]) = 0x00 ↔ crc8 conv s = k := by
  rw [crc8_concat, crcFold_eq, tableRead_eq_zero_iff]
  exact BitVec.xor_eq_zero_iff

/-- The validator on a frame given by its bytes (41_framecodec.md R120). -/
theorem validateFrame_frame (conv : TableConv) (x y c l k : Byte) (p : List Byte) :
    validateFrame conv ([x, y, c, l] ++ p ++ [k]) =
      if crc8 conv ([c, l] ++ p) = k then .ok c l p else .err .errCrc := by
  have hlen : ([x, y, c, l] ++ p ++ [k]).length = p.length + 5 := by simp
  have hlast : ([x, y, c, l] ++ p ++ [k]).length - 2 = 3 + p.length := by omega
  rw [validateFrame, dif_neg (show ¬ _ < 5 by omega)]
  simp only [hlast, frame_covered, frame_payload]
  simp

theorem validateFrame_ok_iff (conv : TableConv) {f : List Byte} (hlen : 5 ≤ f.length) :
    (∃ c l p, validateFrame conv f = .ok c l p) ↔ crc8 conv (f.drop 2) = 0x00 := by
  obtain ⟨x, y, c, l, p, k, rfl⟩ := frame_split hlen
  have hdrop : ([x, y, c, l] ++ p ++ [k]).drop 2 = ([c, l] ++ p) ++ [k] := rfl
  rw [hdrop, crc8_concat_eq_zero_iff, validateFrame_frame]
  split
  next hcrc => exact ⟨fun _ => hcrc, fun _ => ⟨c, l, p, rfl⟩⟩
  next hcrc => exact ⟨nofun, fun h => absurd h hcrc⟩

/-- Settles O19: the self-check is `crc8_concat_eq_zero_iff`, which also turns the validator's compare into it. -/
theorem crcSelfCheck : Obligations.CrcSelfCheck :=
  fun conv => ⟨fun s => (crc8_concat_eq_zero_iff conv s _).mpr rfl, fun _ => validateFrame_ok_iff conv⟩

end Sys2Proof.Proofs
end

section
/-! PROOFS. The operations of the CRC engine: TBL_READ (O21, 40_checksum.md R108), CRC_CLR (O22, R109) and CRC_STEP (O23,
R110). -/

namespace Sys2Proof.Proofs

open Sys2Proof Sys2Proof.Machine

/-- TBL_READ where the entry is known. -/
theorem exec_tblRead_of_entry {i v : Byte} {s : State} (h : tableRead s.conv i = v) :
    exec (.tblRead i) s = .next { s with out := s.out ++ [.table v] } := h ▸ exec_tblRead i s

/-- Settles O21: the effect is `exec_tblRead`; the corner cases name an entry. -/
theorem tableReadOperation : Obligations.TableReadOperation := by
  obtain ⟨-, hone, -, -, -, -, hff, -⟩ := tableSpotValues
  exact ⟨fun _ => rfl, fun i s => exec_tblRead i s, fun _ => exec_tblRead_of_entry (tableRead_zero _),
    fun _ hconv => ⟨exec_tblRead_of_entry (hconv ▸ hff), exec_tblRead_of_entry (hconv ▸ hone)⟩⟩

/-- Settles O22: a word with another `d` is `decode_of_nonzeroOperand`. -/
theorem crcClearOperation : Obligations.CrcClearOperation :=
  ⟨rfl, fun _ => decode_of_nonzeroOperand (.inr (.inl rfl)), exec_crcClr⟩

/-- CRC_STEP where the new value is known. -/
theorem exec_crcStep_of_entry {b v : Byte} {s : State} (h : tableRead s.conv (s.crcAcc ^^^ b) = v) :
    exec (.crcStep b) s = .next { s with crcAcc := v, out := s.out ++ [.crc v] } := h ▸ exec_crcStep b s

/-- The operations of a whole fold are those of the pseudo-operation `CRC8` (30_encoding.md R73). -/
theorem pseudoOperations_crc8 (bytes : List Byte) :
    pseudoOperations (.crc8 bytes) =
      operationOf .crcClr [] :: bytes.map fun b => operationOf (.crcStep b) [] := by
  simp [pseudoOperations, expandPseudo]

/-- Settles O23: with `b` equal to `crc_acc` the index is 0; a whole fold is `runOps_crc8`. -/
theorem crcStepOperation : Obligations.CrcStepOperation := by
  obtain ⟨-, hone, -⟩ := tableSpotValues
  refine ⟨fun _ => rfl, fun _ _ => exec_crcStep_of_entry rfl, fun s => exec_crcStep_of_entry ?_,
    fun s hacc hconv => exec_crcStep_of_entry ?_, fun bytes s => ⟨crcTrace s.conv bytes, ?_⟩⟩
  · exact (tableRead_eq_zero_iff s.conv _).mpr BitVec.xor_self
  · rw [hacc, hconv]
    exact hone
  · rw [← pseudoOperations_crc8, runOps_crc8]

end Sys2Proof.Proofs
end

section
/-! PROOFS. The frame path is independent of the other operations (O56, 40_checksum.md R111, 42_assembler.md R155): what
PUSH and RESET read and write, and the events of PUSH, are a view of the state that the other operations leave alone. -/

namespace Sys2Proof.Proofs

open Sys2Proof Sys2Proof.Machine

/-! ### The view -/

/-- The state with all but the frame path blanked out: the assembler's fields, the table that validates its frames, and
the events PUSH emits. -/
def framePath (s : State) : State :=
  { State.reset with
    st := s.st, buf := s.buf, cmd := s.cmd, plen := s.plen, endIdx := s.endIdx
    conv := s.conv, out := s.out.filter isFrameEvent }

/-- The two states have the same frame path. -/
def SameFramePath (s t : State) : Prop := framePath s = framePath t

theorem sameFramePath_iff (s t : State) :
    SameFramePath s t ↔
      sameAssembler s t ∧ s.out.filter isFrameEvent = t.out.filter isFrameEvent ∧ s.conv = t.conv := by
  simp [SameFramePath, framePath, sameAssembler, and_assoc]

theorem framePath_emit_other {e : Event} (he : isFrameEvent e = false) (s : State) :
    framePath (emit e s) = framePath s := by
  simp [framePath, he]

theorem framePath_emit_frame {e : Event} (he : isFrameEvent e = true) (s : State) :
    framePath (emit e s) = emit e (framePath s) := by
  simp [framePath, emit, he]

theorem isFrameEvent_frameEvent (r : ValResult) : isFrameEvent (frameEvent r) = true := by
  cases r <;> rfl

theorem framePath_finishFrame (s : State) : framePath (finishFrame s) = finishFrame (framePath s) :=
  congrArg resync (framePath_emit_frame (isFrameEvent_frameEvent (validateFrame s.conv s.buf)) s)

theorem framePath_recordLength (n : Nat) (b : Byte) (s : State) :
    framePath (recordLength n b s) = recordLength n b (framePath s) := by
  unfold recordLength
  split <;> rfl

/-! ### PUSH and RESET -/

/-- A PUSH reads nothing outside the frame path, and writes the frame path alike. -/
theorem pushAlike_of_sameFramePath (b : Byte) {s t : State} (h : SameFramePath s t) :
    PushAlike SameFramePath b s t := by
  obtain ⟨⟨hst, hbuf, -, -, hend⟩, -, -⟩ := (sameFramePath_iff s t).mp h
  constructor
  case st => exact hst
  case buf => exact hbuf
  case endIdx => exact fun _ => hend
  case resync => exact congrArg resync h
  case sync => exact congrArg (fun v : State => setSt .header (setBuf [b] v)) h
  case header => exact congrArg (fun v : State => setSt .command (setBuf (v.buf ++ [b]) v)) h
  case command => exact congrArg (fun v : State => setSt .length (setCmd b (setBuf (v.buf ++ [b]) v))) h
  case length =>
    intro n
    rw [SameFramePath, framePath_recordLength, framePath_recordLength]
    exact congrArg (fun v : State => recordLength n b (setBuf (v.buf ++ [b]) v)) h
  case data => exact fun a _ => congrArg (fun v : State => setSt a (setBuf (v.buf ++ [b]) v)) h
  case crc =>
    rw [SameFramePath, framePath_finishFrame, framePath_finishFrame]
    exact congrArg (fun v : State => finishFrame (setBuf (v.buf ++ [b]) v)) h
  case illegal => exact h

theorem writesAssembler_iff (op : Operation) :
    writesAssembler op = true ↔ decode op.word = .ok .reset ∨ ∃ b, decode op.word = .ok (.push b) := by
  cases hdec : decode op.word with
  | ok i => cases i <;> simp [writesAssembler, hdec]
  | error e => simp [writesAssembler, hdec]

theorem issue_alike_of_sameFramePath {op : Operation} (hw : writesAssembler op = true) {s t : State}
    (h : SameFramePath s t) : Alike SameFramePath (issue op s.ops s) (issue op t.ops t) := by
  rw [issue_eq, issue_eq]
  rcases (writesAssembler_iff op).mp hw with hdec | ⟨b, hdec⟩ <;> rw [runWord_of_ok hdec, runWord_of_ok hdec]
  · exact .next (congrArg resetBlock h)
  · exact execPush_alike (pushAlike_of_sameFramePath b h)

/-! ### The other operations -/

theorem exec_next_sameFramePath {i : Instr} {s t : State} (hpush : ∀ b, i ≠ .push b) (hreset : i ≠ .reset)
    (h : exec i s = .next t) : SameFramePath t s := by
  cases i with
  | reset => exact absurd rfl hreset
  | push b => exact absurd rfl (hpush b)
  | tblRead _ | validate =>
    injection h with h
    exact h ▸ framePath_emit_other rfl s
  | crcClr | crcStep _ =>
    injection h with h
    exact h ▸ framePath_emit_other rfl (setCrcAcc _ s)
  | encode c =>
    rcases Nat.lt_or_ge 255 s.port.length with long | fits
    · rw [exec_encode_of_gt long] at h
      injection h with h
      exact h ▸ rfl
    · rw [exec_encode_of_le fits] at h
      injection h with h
      exact h ▸ framePath_emit_other rfl s

theorem issue_next_sameFramePath {op : Operation} (hw : ¬ writesAssembler op = true) {rest : List Operation}
    {s t : State} (h : issue op rest s = .next t) : SameFramePath t s := by
  rw [writesAssembler_iff, not_or, not_exists] at hw
  obtain ⟨hreset, hpush⟩ := hw
  rw [issue_eq] at h
  cases hdec : decode op.word with
  | ok i =>
    rw [runWord_of_ok hdec] at h
    exact exec_next_sameFramePath (s := present op rest s) (fun b hi => hpush b (hi ▸ hdec))
      (fun hi => hreset (hi ▸ hdec)) h
  | error e =>
    rw [runWord_of_error hdec] at h
    injection h with h
    exact h ▸ rfl

/-! ### Runs -/

theorem issue_completes_invariant (op : Operation) (rest : List Operation) {s : State} (hs : invariantHolds s = true) :
    ∃ t, issue op rest s = .next t ∧ invariantHolds t = true := by
  rw [issue_eq]
  cases hdec : decode op.word with
  | ok i =>
    obtain ⟨t, ht⟩ := exec_completes i (s := present op rest s) (Nat.lt_succ_of_le (buf_length_le_of_invariant hs))
    exact ⟨t, (runWord_of_ok hdec _).trans ht, exec_keeps_invariant (s := present op rest s) hs ht⟩
  | error e => exact ⟨_, runWord_of_error hdec _, hs⟩

/-- Two runs, one of them without the operations other than PUSH and RESET, keep the same frame path: an operation in
both runs is `issue_alike_of_sameFramePath`, one in the longer run only is `issue_next_sameFramePath`. -/
theorem runOps_filter_sameFramePath (ops : List Operation) {s v : State} (hs : invariantHolds s = true)
    (h : SameFramePath s v) :
    ∃ t u, runOps ops s = .next t ∧ runOps (ops.filter writesAssembler) v = .next u ∧ SameFramePath t u := by
  induction ops generalizing s v with
  | nil => exact ⟨s, v, rfl, rfl, h⟩
  | cons op later ih =>
    obtain ⟨s', hissue, hs'⟩ := issue_completes_invariant op s.ops hs
    rw [runOps_cons_of_next hissue]
    by_cases hw : writesAssembler op = true
    · obtain ⟨v', hissue', h'⟩ := (issue_alike_of_sameFramePath hw h).outcomes.1 s' hissue
      rw [List.filter_cons_of_pos hw, runOps_cons_of_next hissue']
      exact ih hs' h'
    · rw [List.filter_cons_of_neg hw]
      exact ih hs' ((issue_next_sameFramePath hw hissue).trans h)

/-- Settles O56: the two runs start from one state and so keep the same frame path. -/
theorem interleavingLeavesTheFramePathAlone : Obligations.InterleavingLeavesTheFramePathAlone := by
  intro ops s hs
  obtain ⟨t, u, ht, hu, h⟩ := runOps_filter_sameFramePath ops hs (v := s) rfl
  obtain ⟨hassembler, hevents, -⟩ := (sameFramePath_iff t u).mp h
  exact ⟨t, u, ht, hu, hassembler, hevents⟩

end Sys2Proof.Proofs
end

section
/-! PROOFS. The frame validator: its cases (O25, 41_framecodec.md R120), what it accepts (O27, R130), that it accepts a built
frame (O30, R128), that it detects one changed byte (O31, R129), and what it answers the assembler (O42, R131). -/

namespace Sys2Proof.Proofs

open Sys2Proof Sys2Proof.Machine

/-- Settles O25: a short sequence is `validateFrame_of_short`, the shape of a longer one `validateFrame_frame`. -/
theorem validatorComparesTheCrc : Obligations.ValidatorComparesTheCrc :=
  fun conv => ⟨fun _ => validateFrame_of_short conv, validateFrame_frame conv⟩

/-! ### What the validator accepts -/

theorem validateFrame_of_crc {conv : TableConv} {x y c l k : Byte} {p : List Byte} (h : crc8 conv ([c, l] ++ p) = k) :
    validateFrame conv ([x, y, c, l] ++ p ++ [k]) = .ok c l p := by
  rw [validateFrame_frame, if_pos h]

/-- Everything an accepted sequence can be. -/
theorem validateFrame_ok_shape {conv : TableConv} {f : List Byte} {c l : Byte} {p : List Byte}
    (h : validateFrame conv f = .ok c l p) :
    ∃ x y k, f = [x, y, c, l] ++ p ++ [k] ∧ crc8 conv ([c, l] ++ p) = k := by
  rcases Nat.lt_or_ge f.length 5 with short | long
  · rw [validateFrame_of_short conv short] at h
    cases h
  · obtain ⟨x, y, c', l', p', k, rfl⟩ := frame_split long
    rw [validateFrame_frame] at h
    split at h
    next hcrc =>
      cases h
      exact ⟨x, y, k, rfl, hcrc⟩
    next => cases h

/-- Settles O27: `validateFrame_ok_shape`. -/
theorem noBypassOfTheCrc : Obligations.NoBypassOfTheCrc :=
  fun _ _ _ _ _ => validateFrame_ok_shape

/-- A payload that fits is as long as its length byte says. -/
theorem lengthByte_toNat {p : List Byte} (h : p.length ≤ 255) : (BitVec.ofNat 8 p.length).toNat = p.length :=
  (BitVec.toNat_ofNat ..).trans (Nat.mod_eq_of_lt (Nat.lt_succ_of_le h))

/-- Settles O30: the built frame ends in the CRC of its own bytes. -/
theorem builtFrameValidates : Obligations.BuiltFrameValidates :=
  fun conv c _ hp => ⟨_, buildFrame_of_le conv c hp, _, lengthByte_toNat hp, validateFrame_of_crc rfl⟩

/-! ### One changed byte -/

/-- Folding the same bytes keeps different registers different. -/
theorem foldl_crcFold_injective (conv : TableConv) (s : List Byte) :
    Function.Injective fun c => s.foldl (crcFold conv) c := by
  intro c d h
  induction s generalizing c d with
  | nil => exact h
  | cons b s ih => exact (BitVec.xor_left_inj b).mp (tableRead_injective conv (ih h))

/-- One byte decides the register after it, and so the CRC of any bytes around it. -/
theorem crc8_append_cons_inj (conv : TableConv) {s t : List Byte} {a b : Byte}
    (h : crc8 conv (s ++ a :: t) = crc8 conv (s ++ b :: t)) : a = b := by
  rw [crc8_append, crc8_append, List.foldl_cons, List.foldl_cons] at h
  have hfold : crcFold conv (crc8 conv s) a = crcFold conv (crc8 conv s) b := foldl_crcFold_injective conv t h
  exact (BitVec.xor_right_inj _).mp (tableRead_injective conv hfold)

theorem crc8_set_ne (conv : TableConv) {s : List Byte} {i : Nat} {b : Byte} (hi : i < s.length) (hb : s[i]? ≠ some b) :
    crc8 conv (s.set i b) ≠ crc8 conv s := by
  intro h
  have hset (a : Byte) : s.set i a = s.take i ++ a :: s.drop (i + 1) := by
    rw [List.set_eq_take_append_cons_drop, if_pos hi]
  have hself : crc8 conv (s.set i b) = crc8 conv (s.set i s[i]) := by rw [List.set_getElem_self, h]
  rw [hset, hset] at hself
  exact hb (by rw [List.getElem?_eq_getElem hi, crc8_append_cons_inj conv hself])

/-- A sequence of five bytes or more that is not accepted fails the CRC compare. -/
theorem validateFrame_errCrc_of_crc {conv : TableConv} {f : List Byte} (hlen : 5 ≤ f.length)
    (h : crc8 conv (f.drop 2) ≠ 0x00) : validateFrame conv f = .err .errCrc := by
  rw [Ne, ← validateFrame_ok_iff conv hlen] at h
  obtain ⟨x, y, c, l, p, k, rfl⟩ := frame_split hlen
  rw [validateFrame_frame] at h ⊢
  split at h
  next => exact absurd ⟨c, l, p, rfl⟩ h
  next hcrc => exact if_neg hcrc

/-- The validator reads neither of the first two bytes (R123). -/
theorem validateFrame_set_of_lt_two {conv : TableConv} {f : List Byte} (hlen : 5 ≤ f.length) {i : Nat} (hi : i < 2)
    (b : Byte) : validateFrame conv (f.set i b) = validateFrame conv f := by
  obtain ⟨x, y, c, l, p, k, rfl⟩ := frame_split hlen
  rw [validateFrame_frame conv x y]
  match i, hi with
  | 0, _ => exact validateFrame_frame conv b y c l k p
  | 1, _ => exact validateFrame_frame conv x b c l k p

/-- Settles O31: an accepted frame has CRC 0 from its third byte on, and so its changed form has not. -/
theorem oneByteErrorsAreDetected : Obligations.OneByteErrorsAreDetected := by
  intro conv f c l p h
  have hlen : 5 ≤ f.length := by
    obtain ⟨x, y, k, rfl, -⟩ := validateFrame_ok_shape h
    simp
  refine ⟨fun i b htwo hi hb => ?_, fun i b hi => (validateFrame_set_of_lt_two hlen hi b).trans h⟩
  refine validateFrame_errCrc_of_crc (by rwa [List.length_set]) ?_
  have hzero : crc8 conv (f.drop 2) = 0x00 := (validateFrame_ok_iff conv hlen).mp ⟨c, l, p, h⟩
  rw [List.drop_set, if_neg (Nat.not_lt.mpr htwo), ← hzero]
  refine crc8_set_ne conv (by rw [List.length_drop]; omega) ?_
  rwa [List.getElem?_drop, Nat.add_sub_cancel' htwo]

/-! ### The assembler's frames -/

/-- In CRC the buffer is a frame but for its last byte (42_assembler.md R146, 10_state.md R31). -/
theorem buf_of_invariant_crc {s : State} (hs : invariantHolds s = true) (hst : s.st = stCode .crc) :
    ∃ p : List Byte, p.length = s.plen.toNat ∧ s.buf = [0xAA, 0x55, s.cmd, s.plen] ++ p := by
  obtain ⟨htake, hlen⟩ := (invariantHolds_crc hst).mp hs
  refine ⟨s.buf.drop 4, by rw [List.length_drop]; omega, ?_⟩
  rw [← htake, List.take_append_drop]

/-- Settles O42: the byte pushed completes the frame, which the validator compares with its CRC. -/
theorem assembledFramesAreWellShaped : Obligations.AssembledFramesAreWellShaped := by
  intro s b hs hst
  obtain ⟨p, hp, hbuf⟩ := buf_of_invariant_crc hs hst
  rw [hbuf]
  refine ⟨by simp; omega, p, hp, rfl, ?_⟩
  rw [validateFrame_frame]
  exact ite_eq_or_eq ..

end Sys2Proof.Proofs
end

section
/-! PROOFS. The operations of the frame codec: VALIDATE (O26, 41_framecodec.md R124), ENCODE (O29, R127) and the payload
that has no frame (O59, R126). -/

namespace Sys2Proof.Proofs

open Sys2Proof Sys2Proof.Machine

/-! ### VALIDATE -/

/-- VALIDATE where the result is known. -/
theorem exec_validate_of_result {s : State} {r : ValResult} (h : validateFrame s.conv s.port = r) :
    exec .validate s = .next { s with out := s.out ++ [.valid r] } := h ▸ exec_validate s

/-- Under either table the frame of command 0 with no payload has CRC 0. -/
theorem validateFrame_zero (conv : TableConv) :
    validateFrame conv [0xAA, 0x55, 0x00, 0x00, 0x00] = .ok 0x00 0x00 [] :=
  validateFrame_of_crc (p := []) (crc8_replicate_zero conv 2)

/-- Settles O26: the corner cases and the examples name the validator's result. -/
theorem validateOperation : Obligations.ValidateOperation := by
  refine ⟨rfl, fun _ => decode_of_nonzeroOperand (.inr (.inr rfl)), exec_validate, fun s hport => ?_,
    fun s hport => ?_, fun s hconv hport => ?_, fun s hconv hport => ?_⟩ <;> apply exec_validate_of_result
  · exact validateFrame_of_short s.conv (Nat.lt_succ_of_le hport)
  · rw [hport, validateFrame_zero]
  · rw [hconv, hport]
    decide
  · rw [hconv, hport]
    decide

/-! ### ENCODE -/

theorem raiseFault_eq (r : FaultMark) (s : State) :
    raiseFault r s = { s with fault := some (s.fault.getD r) } := by
  rw [raiseFault, firstMark_eq]

theorem exec_encode_of_oversized (c : Byte) (s : State) (h : 255 < s.port.length) :
    exec (.encode c) s = .next { s with fault := some (s.fault.getD .payloadTooLong) } := by
  rw [exec_encode_of_gt h, raiseFault_eq]

/-- ENCODE where the payload, its length byte and the CRC are known. -/
theorem exec_encode_of_crc {c l k : Byte} {p : List Byte} {s : State} (hport : s.port = p) (hp : p.length ≤ 255)
    (hl : BitVec.ofNat 8 p.length = l) (hk : crc8 s.conv ([c, l] ++ p) = k) :
    exec (.encode c) s = .next { s with out := s.out ++ [.frame ([0xAA, 0x55, c, l] ++ p ++ [k])] } := by
  subst hport hl hk
  exact exec_encode_of_le hp

/-- The CRC of a frame with no payload: its length byte is 0. -/
theorem crc8_emptyPayload (conv : TableConv) (c : Byte) :
    crc8 conv [c, 0x00] = tableRead conv (tableRead conv c) :=
  calc crc8 conv [c, 0x00] = tableRead conv (tableRead conv (0#8 ^^^ c) ^^^ 0#8) := rfl
    _ = tableRead conv (tableRead conv c) := by rw [BitVec.xor_zero, BitVec.zero_xor]

/-- Settles O29: on each side of the bound one lemma; the corner case and the example name the CRC. -/
theorem encodeOperation : Obligations.EncodeOperation := by
  refine ⟨fun _ => rfl, fun _ _ hp => exec_encode_of_crc rfl hp rfl rfl, exec_encode_of_oversized,
    fun c s hport => ?_, fun s hconv hport => ?_⟩
  · exact exec_encode_of_crc hport (Nat.zero_le _) rfl (crc8_emptyPayload s.conv c)
  · exact exec_encode_of_crc hport (by decide) rfl (hconv ▸ by decide)

/-! ### The payload that has no frame -/

theorem buildFrame_eq_none_iff (conv : TableConv) (c : Byte) (p : List Byte) :
    buildFrame conv c p = none ↔ 255 < p.length := by
  refine ⟨fun h => Nat.lt_of_not_le fun hp => ?_, buildFrame_of_gt conv c⟩
  rw [buildFrame_of_le conv c hp] at h
  cases h

/-- A frame that is built carries its payload's true length. -/
theorem buildFrame_lengthByte {conv : TableConv} {c : Byte} {p f : List Byte} (h : buildFrame conv c p = some f) :
    f[3]?.map BitVec.toNat = some p.length := by
  have hp : p.length ≤ 255 := Nat.le_of_not_lt fun long => by
    rw [buildFrame_of_gt conv c long] at h
    cases h
  rw [buildFrame_of_le conv c hp] at h
  injection h with h
  exact h ▸ congrArg some (lengthByte_toNat hp)

/-- An ENCODE that emits a frame emits the one the builder gives. -/
theorem exec_encode_emits_built {c : Byte} {s t : State} {f : List Byte} (h : exec (.encode c) s = .next t)
    (hout : t.out = s.out ++ [.frame f]) : buildFrame s.conv c s.port = some f := by
  rcases exec_encode_next_out h with ⟨-, hsame⟩ | ⟨g, hbuilt, hframe⟩
  · simp [hsame] at hout
  · have hfg : f = g := by simpa [hframe] using hout.symm
    rw [hfg, hbuilt]

/-- Settles O59: the builder's two cases, and ENCODE's. -/
theorem oversizedPayloadHasNoFrame : Obligations.OversizedPayloadHasNoFrame :=
  ⟨buildFrame_eq_none_iff, exec_encode_of_oversized, fun _ _ _ _ => buildFrame_lengthByte,
    fun _ _ _ _ => exec_encode_emits_built⟩

end Sys2Proof.Proofs
end

section
/-! PROOFS. PUSH, arm by arm (O32 to O38, 42_assembler.md R141 to R147): each arm's next state as an equation, which
the runs of the assembler also use. -/

namespace Sys2Proof.Proofs

open Sys2Proof Sys2Proof.Machine

section Arms

variable {s : State} {b : Byte}

/-! ### SYNC and HEADER -/

theorem exec_push_syncByte (hst : s.st = stCode .sync) :
    exec (.push 0xAA) s = .next { s with buf := [0xAA], st := stCode .header } :=
  (execPush_sync hst _).trans (if_pos rfl)

/-- In SYNC every byte but the sync byte is discarded. -/
theorem exec_push_discarded (hst : s.st = stCode .sync) (hb : b ≠ 0xAA) :
    exec (.push b) s = .next { s with buf := [], st := stCode .sync } :=
  (execPush_sync hst b).trans (if_neg hb)

theorem exec_push_headerByte (hst : s.st = stCode .header) (hroom : s.buf.length < 260) :
    exec (.push 0x55) s = .next { s with buf := s.buf ++ [0x55], st := stCode .command } :=
  calc exec (.push 0x55) s = pushHeader 0x55 s := execPush_header hst _
    _ = appendBuf 0x55 (setSt .command) s := if_pos rfl
    _ = _ := appendBuf_of_lt hroom

/-- Any byte but the header byte, the sync byte among them, is dropped with the sync byte before it. -/
theorem exec_push_wrongHeader (hst : s.st = stCode .header) (hb : b ≠ 0x55) :
    exec (.push b) s = .next { s with buf := [], st := stCode .sync } :=
  (execPush_header hst b).trans (if_neg hb)

/-! ### The arms that take every byte -/

theorem exec_push_command (hst : s.st = stCode .command) (hroom : s.buf.length < 260) :
    exec (.push b) s = .next { s with buf := s.buf ++ [b], cmd := b, st := stCode .length } :=
  (execPush_command hst b).trans (appendBuf_of_lt hroom)

theorem recordLength_eq (n : Nat) (b : Byte) (t : State) :
    recordLength n b t =
      { t with
        plen := b
        endIdx := if b = 0 then t.endIdx else BitVec.ofNat 9 (n + b.toNat)
        st := if b = 0 then stCode .crc else stCode .data } := by
  unfold recordLength
  split <;> rfl

theorem exec_push_length (hst : s.st = stCode .length) (hroom : s.buf.length < 260) :
    exec (.push b) s =
      .next { s with
        buf := s.buf ++ [b]
        plen := b
        endIdx := if b = 0 then s.endIdx else BitVec.ofNat 9 (s.buf.length + b.toNat)
        st := if b = 0 then stCode .crc else stCode .data } :=
  calc exec (.push b) s = pushLength b s := execPush_length hst b
    _ = .next (recordLength s.buf.length b (setBuf (s.buf ++ [b]) s)) := appendBuf_of_lt hroom
    _ = _ := congrArg _ (recordLength_eq _ _ _)

theorem exec_push_data (hst : s.st = stCode .data) (hroom : s.buf.length < 260) :
    exec (.push b) s =
      .next { s with
        buf := s.buf ++ [b]
        st := if s.buf.length = s.endIdx.toNat then stCode .crc else stCode .data } := by
  rw [exec_push, execPush_data hst, pushData, appendBuf_of_lt hroom, setSt, apply_ite stCode]
  rfl

theorem exec_push_crc (hst : s.st = stCode .crc) (hroom : s.buf.length < 260) :
    exec (.push b) s =
      .next { s with
        buf := []
        st := stCode .sync
        out := s.out ++ [frameEvent (validateFrame s.conv (s.buf ++ [b]))] } :=
  (execPush_crc hst b).trans (appendBuf_of_lt hroom)

/-- The CRC arm where the validator's result is known. -/
theorem exec_push_crc_of_result {r : ValResult} (hst : s.st = stCode .crc) (hroom : s.buf.length < 260)
    (h : validateFrame s.conv (s.buf ++ [b]) = r) :
    exec (.push b) s = .next { s with buf := [], st := stCode .sync, out := s.out ++ [frameEvent r] } :=
  h ▸ exec_push_crc hst hroom

end Arms

/-! ### The statements -/

/-- Settles O32: the two cases of the SYNC arm. -/
theorem pushInSync : Obligations.PushInSync := by
  refine fun b s hst => ⟨?_, (invariantHolds_sync hst).mp⟩
  split
  next hb => exact hb ▸ exec_push_syncByte hst
  next hb => exact exec_push_discarded hst hb

/-- Settles O33: the two cases of the HEADER arm. -/
theorem pushInHeader : Obligations.PushInHeader :=
  fun _ _ hst => ⟨fun hb hroom => hb ▸ exec_push_headerByte hst hroom, exec_push_wrongHeader hst⟩

/-- Settles O34: `exec_push_command`. -/
theorem pushInCommand : Obligations.PushInCommand :=
  fun _ _ => exec_push_command

/-- Settles O35: the two cases of `exec_push_length`; the sum is at most 256 + 255, which 9 bits hold. -/
theorem pushInLength : Obligations.PushInLength := by
  intro b s hst hlen
  have hexec := exec_push_length (b := b) hst (by omega)
  refine ⟨fun hb => ?_, fun hb => ⟨BitVec.ofNat 9 (s.buf.length + b.toNat), ?_, ?_⟩, fun hs => ?_⟩
  · rw [hexec, if_pos hb, if_pos hb]
    rfl
  · have hbyte := b.isLt
    rw [BitVec.toNat_ofNat]
    exact Nat.mod_eq_of_lt (by omega)
  · rw [hexec, if_neg hb, if_neg hb]
    rfl
  · rw [(invariantHolds_length hst).mp hs]
    rfl

/-- Settles O36: `exec_push_data`, and the DATA row of the invariant. -/
theorem pushInData : Obligations.PushInData := by
  refine fun b s hst hroom => ⟨exec_push_data hst hroom, fun hs => ?_⟩
  obtain ⟨-, hfour, hle, -, -⟩ := (invariantHolds_data hst).mp hs
  exact ⟨hfour, hle⟩

/-- Settles O37: the event is that of the validator's result, which under the invariant is one of the two of O42. -/
theorem pushInCrc : Obligations.PushInCrc := by
  intro b s hst hroom
  refine ⟨fun c l p => exec_push_crc_of_result hst hroom, fun r => exec_push_crc_of_result hst hroom,
    fun hs r hr => ?_, fun hs c l p hr => ?_⟩ <;>
    obtain ⟨-, q, -, -, hok | herr⟩ := assembledFramesAreWellShaped s b hs hst
  · cases hok.symm.trans hr
  · cases herr.symm.trans hr
    rfl
  · cases hok.symm.trans hr
    exact ⟨rfl, rfl⟩
  · cases herr.symm.trans hr

/-- Settles O38: the codes 6 and 7 are those that name no assembler state. -/
theorem pushInAnIllegalState : Obligations.PushInAnIllegalState := by
  intro b s hst
  have hcode : 6 ≤ s.st.toNat := by rcases hst with h | h <;> rw [h] <;> decide
  refine ⟨?_, Bool.eq_false_of_not_eq_true fun hs => Nat.not_lt.mpr hcode (st_lt_of_invariant hs)⟩
  rw [exec_push, execPush_illegal hcode, raiseFault_eq]

end Sys2Proof.Proofs
end

section
/-! PROOFS. What every PUSH keeps to: it completes where the buffer has room and writes its own unit only (O39,
42_assembler.md R140), it emits in the CRC arm only (O41, R148), and it finds room in every state that meets the
invariant (O49, R153). -/

namespace Sys2Proof.Proofs

open Sys2Proof Sys2Proof.Machine

theorem execPush_next_buf_length_port {b : Byte} {s t : State} (h : execPush b s = .next t) :
    t.buf.length ≤ s.buf.length + 1 ∧ t.port = s.port := by
  rcases execPush_next_cases h with ⟨-, -, rfl⟩ | ⟨-, -, rfl⟩ | ⟨-, -, -, rfl⟩ | ⟨-, -, rfl⟩ | ⟨-, -, rfl⟩ |
    ⟨-, -, rfl⟩ | ⟨-, -, rfl⟩ | ⟨-, -, rfl⟩ | ⟨-, rfl⟩ <;> simp

/-- Settles O39: PUSH completes by `execPush_completes`, and each field it leaves alone has its lemma. -/
theorem pushCompletes : Obligations.PushCompletes := by
  refine fun b s hroom => ⟨rfl, ?_⟩
  obtain ⟨t, ht⟩ := execPush_completes b hroom
  obtain ⟨hrefused, hconv⟩ := exec_next_refused_conv (i := .push b) ht
  obtain ⟨hlen, hport⟩ := execPush_next_buf_length_port ht
  refine ⟨t, ht, hlen, execPush_next_crcAcc ht, hrefused, hconv, hport, exec_next_ops (i := .push b) ht, fun hst => ?_⟩
  rw [execPush_next_fault ht, raisedFault, if_neg (Nat.not_le.mpr hst), Option.or_none]

/-- Settles O41: the event of the CRC arm is that of the validator's result; no other arm writes the trace. -/
theorem pushEmitsAtMostOneEvent : Obligations.PushEmitsAtMostOneEvent := by
  refine fun b s t h => ⟨fun hst => ?_, fun hst => ?_⟩
  · obtain ⟨-, rfl⟩ := appendBuf_next ((execPush_crc hst b).symm.trans h)
    exact ⟨_, isFrameEvent_frameEvent _, finishFrame_out _⟩
  · exact (execPush_next_out h).resolve_right fun ⟨hcrc, _⟩ => hst hcrc

theorem step_completes_invariant {s : State} (hs : invariantHolds s = true) :
    ∃ t, step s = .next t ∧ invariantHolds t = true := by
  cases hops : s.ops with
  | nil => exact ⟨s, step_of_nil hops, hs⟩
  | cons op rest =>
    rw [step_of_cons hops]
    exact issue_completes_invariant op rest hs

/-- Settles O49: a step leaves a state that meets the invariant again, and those hold at most 259 bytes. -/
theorem bufferNeverOverflows : Obligations.BufferNeverOverflows := by
  intro s hs
  obtain ⟨t, hstep, ht⟩ := step_completes_invariant hs
  refine ⟨buf_length_le_of_invariant hs, ⟨t, hstep, (buf_length_le_of_invariant ht).trans (by decide)⟩,
    fun hst b => ?_⟩
  obtain ⟨hlen, -⟩ := assembledFramesAreWellShaped s b hs hst
  exact hlen

end Sys2Proof.Proofs
end

section
/-! PROOFS. Runs of pushed bytes: a frame cut short (O45, 42_assembler.md R152), a whole frame from its length byte on
(O44, R151), bytes lost to a stray sync byte (O46, R150), and a built frame (O43, R149). -/

namespace Sys2Proof.Proofs

open Sys2Proof Sys2Proof.Machine

/-! ### One more byte -/

theorem runOps_pushOperations_append {f : List Byte} (g : List Byte) {s t : State}
    (h : runOps (pushOperations f) s = .next t) :
    runOps (pushOperations (f ++ g)) s = runOps (pushOperations g) t := by
  rw [pushOperations_append, runOps_append_of_next _ h]

theorem runOps_pushOperations_singleton {b : Byte} {s u : State}
    (hexec : exec (.push b) { s with port := [] } = .next u) : runOps (pushOperations [b]) s = .next u :=
  runOps_pushOperations_cons rfl hexec

theorem runOps_pushOperations_concat {f : List Byte} {b : Byte} {s t u : State}
    (h : runOps (pushOperations f) s = .next t) (hexec : exec (.push b) { t with port := [] } = .next u) :
    runOps (pushOperations (f ++ [b])) s = .next u := by
  rw [runOps_pushOperations_append _ h, runOps_pushOperations_singleton hexec]

/-! ### From the length byte on -/

theorem byte_eq_zero_iff (b : Byte) : b = 0 ↔ b.toNat = 0 := BitVec.toNat_eq

/-- The state after the length byte `l` and `body`, of at most `l` payload bytes, from a state `s` in LENGTH that meets
the invariant: DATA while payload bytes are missing, then CRC. -/
def captured (s : State) (l : Byte) (body : List Byte) : State :=
  { s with
    st := if body.length = l.toNat then stCode .crc else stCode .data
    buf := s.buf ++ [l] ++ body
    plen := l
    endIdx := if l = 0 then s.endIdx else BitVec.ofNat 9 (3 + l.toNat)
    port := [] }

section Capture

variable {s : State} {l : Byte} {body : List Byte}

theorem captured_st_crc (h : body.length = l.toNat) : (captured s l body).st = stCode .crc := if_pos h

theorem captured_st_data (h : body.length < l.toNat) : (captured s l body).st = stCode .data := if_neg h.ne

theorem captured_endIdx_toNat (h : 0 < l.toNat) : (captured s l body).endIdx.toNat = 3 + l.toNat := by
  have hl : l ≠ 0 := (byte_eq_zero_iff l).not.mpr h.ne'
  have hbyte := l.isLt
  rw [captured, if_neg hl, BitVec.toNat_ofNat]
  exact Nat.mod_eq_of_lt (by omega)

theorem captured_buf_length (hbuf : s.buf.length = 3) : (captured s l body).buf.length = 4 + body.length := by
  simp only [captured, List.length_append, List.length_singleton, hbuf]

/-- The buffer never holds a whole frame of 260 bytes before its CRC byte. -/
theorem captured_room (hbuf : s.buf.length = 3) (hbody : body.length ≤ l.toNat) :
    (captured s l body).buf.length < 260 := by
  have hbyte := l.isLt
  rw [captured_buf_length hbuf]
  omega

/-- The length byte: a frame without payload bytes to come goes straight to CRC. -/
theorem exec_push_captured_nil (hst : s.st = stCode .length) (hbuf : s.buf.length = 3) :
    exec (.push l) { s with port := [] } = .next (captured s l []) := by
  have hzero : ([] : List Byte).length = l.toNat ↔ l = 0 := eq_comm.trans (byte_eq_zero_iff l).symm
  rw [exec_push_length (s := { s with port := [] }) hst (show s.buf.length < 260 by omega)]
  simp only [captured, hzero, hbuf, List.append_nil]

/-- A payload byte: it is the last one exactly when its index is `end_idx`. -/
theorem exec_push_captured (hbuf : s.buf.length = 3) (hmore : body.length < l.toNat) (b : Byte) :
    exec (.push b) (captured s l body) = .next (captured s l (body ++ [b])) := by
  have hlast : 4 + body.length = 3 + l.toNat ↔ (body ++ [b]).length = l.toNat := by
    rw [List.length_append, List.length_singleton]
    omega
  rw [exec_push_data (captured_st_data hmore) (captured_room hbuf hmore.le), captured_buf_length hbuf,
    captured_endIdx_toNat (Nat.zero_lt_of_lt hmore)]
  simp only [captured, hlast, List.append_assoc]

/-- By induction on the last payload byte. -/
theorem runOps_captured (hst : s.st = stCode .length) (hbuf : s.buf.length = 3) (hbody : body.length ≤ l.toNat) :
    runOps (pushOperations ([l] ++ body)) s = .next (captured s l body) := by
  induction body using List.reverseRecOn with
  | nil => exact runOps_pushOperations_singleton (exec_push_captured_nil hst hbuf)
  | append_singleton body b ih =>
    have hmore : body.length < l.toNat := by simpa using hbody
    rw [← List.append_assoc]
    exact runOps_pushOperations_concat (ih hmore.le) (exec_push_captured hbuf hmore b)

end Capture

theorem buf_length_of_invariant_length {s : State} (hs : invariantHolds s = true) (hst : s.st = stCode .length) :
    s.buf.length = 3 := by
  rw [(invariantHolds_length hst).mp hs]
  rfl

/-- Settles O45: with payload bytes missing, `captured` is in DATA. -/
theorem partialFramePersists : Obligations.PartialFramePersists := by
  intro s l body hs hst hmore
  have hl : l ≠ 0 := (byte_eq_zero_iff l).not.mpr (Nat.zero_lt_of_lt hmore).ne'
  rw [runOps_captured hst (buf_length_of_invariant_length hs hst) hmore.le, captured, if_neg hmore.ne, if_neg hl]
  rfl

/-- Settles O44: with all payload bytes there, `captured` is in CRC, where the last byte completes the frame. -/
theorem captureIsBoundedByTheLengthByte : Obligations.CaptureIsBoundedByTheLengthByte := by
  intro s l k body hs hst hbody
  have hbuf := buf_length_of_invariant_length hs hst
  have hvalid : validateFrame s.conv ((captured s l body).buf ++ [k]) =
      if crc8 s.conv ([s.cmd, l] ++ body) = k then .ok s.cmd l body else .err .errCrc := by
    rw [captured, (invariantHolds_length hst).mp hs]
    exact validateFrame_frame s.conv 0xAA 0x55 s.cmd l k body
  refine runOps_pushOperations_concat (runOps_captured hst hbuf hbody.le) ?_
  refine (exec_push_crc_of_result (captured_st_crc hbody) (captured_room hbuf hbody.le) hvalid).trans ?_
  rw [apply_ite frameEvent]
  rfl

/-! ### From SYNC -/

section Sync

variable {s : State}

theorem runOps_syncByte (hst : s.st = stCode .sync) :
    runOps (pushOperations [0xAA]) s = .next { s with st := stCode .header, buf := [0xAA], port := [] } :=
  runOps_pushOperations_singleton (exec_push_syncByte hst)

theorem runOps_headerBytes (hst : s.st = stCode .sync) :
    runOps (pushOperations [0xAA, 0x55]) s =
      .next { s with st := stCode .command, buf := [0xAA, 0x55], port := [] } :=
  runOps_pushOperations_concat (runOps_syncByte hst) (exec_push_headerByte rfl (by simp))

/-- The bytes before the length byte lead to a state in LENGTH. -/
theorem runOps_commandByte (hst : s.st = stCode .sync) (c : Byte) :
    runOps (pushOperations [0xAA, 0x55, c]) s =
      .next { s with st := stCode .length, buf := [0xAA, 0x55, c], cmd := c, port := [] } :=
  runOps_pushOperations_concat (runOps_headerBytes hst) (exec_push_command rfl (by simp))

end Sync

/-- Settles O46: the wrong header byte resyncs, and each byte after it is discarded. -/
theorem straySyncLosesTheFrame : Obligations.StraySyncLosesTheFrame := by
  intro s wrong lost hst hwrong hlost
  induction lost using List.reverseRecOn with
  | nil => exact runOps_pushOperations_concat (runOps_syncByte hst) (exec_push_wrongHeader rfl hwrong)
  | append_singleton lost b ih =>
    obtain ⟨hlost, hb⟩ : 0xAA ∉ lost ∧ b ≠ 0xAA := by simpa [eq_comm] using hlost
    rw [← List.append_assoc]
    exact runOps_pushOperations_concat (ih hlost) (exec_push_discarded rfl hb)

/-! ### A built frame -/

section BuiltFrame

variable {s : State} {p : List Byte}

/-- The run of a whole frame: its own CRC byte dispatches it. -/
theorem runOps_builtFrame (hst : s.st = stCode .sync) (c : Byte) (hp : p.length ≤ 255) :
    runOps (pushOperations ([0xAA, 0x55, c, BitVec.ofNat 8 p.length] ++ p ++
        [crc8 s.conv ([c, BitVec.ofNat 8 p.length] ++ p)])) s =
      .next { s with
        st := 0, buf := [], cmd := c, plen := BitVec.ofNat 8 p.length
        endIdx := if p = [] then s.endIdx else BitVec.ofNat 9 (3 + p.length)
        out := s.out ++ [.dispatch c (BitVec.ofNat 8 p.length) p]
        port := [] } := by
  have hlen := lengthByte_toNat hp
  have hempty : BitVec.ofNat 8 p.length = 0 ↔ p = [] := by
    rw [byte_eq_zero_iff, hlen, List.length_eq_zero_iff]
  generalize BitVec.ofNat 8 p.length = l at hlen hempty
  have hcapture := captureIsBoundedByTheLengthByte
    { s with st := stCode .length, buf := [0xAA, 0x55, c], cmd := c, port := [] } l (crc8 s.conv ([c, l] ++ p)) p
    ((invariantHolds_length rfl).mpr rfl) rfl hlen.symm
  refine (runOps_pushOperations_append _ (runOps_commandByte hst c)).trans (hcapture.trans ?_)
  rw [if_pos rfl, hlen]
  simp only [hempty]

/-- Before its last byte a frame has led no further than to `captured`, which emits nothing. -/
theorem runOps_builtFrame_take (hst : s.st = stCode .sync) (c : Byte) {l k : Byte} (hlen : p.length ≤ l.toNat) {n : Nat}
    (hn : n < ([0xAA, 0x55, c, l] ++ p ++ [k]).length) :
    ∃ u, runOps (pushOperations (([0xAA, 0x55, c, l] ++ p ++ [k]).take n)) s = .next u ∧ u.out = s.out := by
  match n with
  | 0 => exact ⟨_, runOps_nil s, rfl⟩
  | 1 => exact ⟨_, runOps_syncByte hst, rfl⟩
  | 2 => exact ⟨_, runOps_headerBytes hst, rfl⟩
  | 3 => exact ⟨_, runOps_commandByte hst c, rfl⟩
  | n + 4 =>
    have hn : n ≤ p.length := by simpa using hn
    have htake : ([0xAA, 0x55, c, l] ++ p ++ [k]).take (n + 4) = [0xAA, 0x55, c] ++ ([l] ++ p.take n) := by
      simp [List.take_append_of_le_length hn]
    have hbody : (p.take n).length ≤ l.toNat := (List.length_take_le' ..).trans hlen
    rw [htake, runOps_pushOperations_append _ (runOps_commandByte hst c)]
    exact ⟨_, runOps_captured rfl rfl hbody, rfl⟩

end BuiltFrame

/-- Settles O43: `runOps_builtFrame` from SYNC; a stray sync byte and what it loses lead back to SYNC (O46). -/
theorem builtFrameIsDispatched : Obligations.BuiltFrameIsDispatched := by
  intro s c p hst hp
  refine ⟨_, buildFrame_of_le s.conv c hp, runOps_builtFrame hst c hp, fun n hn => ?_,
    fun wrong lost hwrong hlost => ?_⟩
  · exact runOps_builtFrame_take hst c (lengthByte_toNat hp).ge hn
  · rw [runOps_pushOperations_append _ (straySyncLosesTheFrame s wrong lost hst hwrong hlost)]
    exact ⟨_, runOps_builtFrame (s := { s with st := 0, buf := [], port := [] }) rfl c hp, rfl, rfl, rfl⟩

end Sys2Proof.Proofs
end

section
/-! PROOFS. The conditions of the block (60_exceptions.md): a step with nothing issued waits (O7, R182), and a mark is set
only under its condition of R171, by a step that writes nothing else (O53, R175, R176). -/

namespace Sys2Proof.Proofs

open Sys2Proof Sys2Proof.Machine

/-- Settles O7: the first step leaves the state (`step_of_nil`), so the others start from it again. -/
theorem waitingChangesNothing : Obligations.WaitingChangesNothing := by
  intro s k hops
  induction k with
  | zero => rfl
  | succ k ih => rw [runSteps, step_of_nil hops]; exact ih

/-! ### The operation that raises a fault -/

theorem raisedFault_eq_some_iff {i : Instr} {s : State} {r : FaultMark} :
    raisedFault i s = some r ↔
      (r = .payloadTooLong ∧ 255 < s.port.length ∧ ∃ c, i = .encode c) ∨
      (r = .illegalState ∧ 6 ≤ s.st.toNat ∧ ∃ b, i = .push b) := by
  cases i <;> simp [raisedFault, and_comm, eq_comm]

/-- Where an operation raises a fault, that is its whole effect (60_exceptions.md R175). -/
theorem exec_of_raisedFault {i : Instr} {s : State} {r : FaultMark} (h : raisedFault i s = some r) :
    exec i s = .next (raiseFault r s) := by
  rcases raisedFault_eq_some_iff.mp h with ⟨rfl, hlong, c, rfl⟩ | ⟨rfl, hst, b, rfl⟩
  · exact exec_encode_of_gt hlong
  · exact execPush_illegal hst b

/-- A mark that takes a further reason and changes was unset. -/
theorem eq_none_of_or_ne {α : Type} {old new : Option α} (h : old.or new ≠ old) : old = none := by
  cases old with
  | none => rfl
  | some r => exact absurd Option.some_or h

theorem exec_next_of_fault_ne {i : Instr} {s t : State} (h : exec i s = .next t) (hne : t.fault ≠ s.fault) :
    ∃ r, raisedFault i s = some r ∧ t = { s with fault := some r } := by
  rw [exec_next_fault h] at hne
  have hunset := eq_none_of_or_ne hne
  rw [hunset, Option.none_or] at hne
  obtain ⟨r, hr⟩ := Option.ne_none_iff_exists'.mp hne
  rw [exec_of_raisedFault hr, raiseFault_eq, hunset] at h
  injection h with h
  exact ⟨r, hr, h.symm⟩

/-- Settles O53: a wait changes no mark, a decoded operation changes `fault` alone and only by raising it
(`exec_next_of_fault_ne`), and a reserved word changes `refused` alone, where it was unset. -/
theorem marksHaveTheirConditions : Obligations.MarksHaveTheirConditions := by
  intro s t h hmark
  rcases step_next_cases h with ⟨-, rfl⟩ | ⟨op, rest, i, hops, hdec, hexec⟩ | ⟨op, rest, e, hops, hdec, rfl⟩
  · simp at hmark
  · have hfault : t.fault ≠ s.fault := hmark.resolve_right fun hne => hne (exec_next_refused_conv hexec).1
    obtain ⟨r, hraised, ht⟩ := exec_next_of_fault_ne hexec hfault
    rcases raisedFault_eq_some_iff.mp hraised with ⟨rfl, hlong, c, rfl⟩ | ⟨rfl, hst, b, rfl⟩
    · exact ⟨op, rest, hops, .inr (.inl ⟨ht, hlong, c, hdec⟩)⟩
    · exact ⟨op, rest, hops, .inr (.inr ⟨ht, hst, b, hdec⟩)⟩
  · have hrefused : firstMark s.refused .reservedOp ≠ s.refused := hmark.resolve_left fun hne => hne rfl
    have hunset : s.refused = none := eq_none_of_or_ne (firstMark_eq_or s.refused _ ▸ hrefused)
    refine ⟨op, rest, hops, .inl ⟨?_, e, hdec⟩⟩
    rw [refuse, present_refused, hunset]
    rfl

end Sys2Proof.Proofs
end

section
/-! PROOFS. RESET (O12, 70_reset_and_hazards.md R190), and the good runs from power-on: those of legal operations only
(O58, R198). -/

namespace Sys2Proof.Proofs

open Sys2Proof Sys2Proof.Machine

/-- Settles O12: the effect is `exec_reset`; in SYNC, with the buffer empty and `crc_acc` 0, three of the six fields it
writes have their reset values already. -/
theorem resetOperation : Obligations.ResetOperation := by
  refine ⟨rfl, fun _ => decode_of_nonzeroOperand (.inl rfl), exec_reset, fun s hst hbuf hacc => ?_⟩
  calc exec .reset s
      = .next { s with st := 0, buf := [], cmd := 0x00, plen := 0x00, endIdx := 0, crcAcc := 0x00 } := exec_reset s
    _ = .next { s with cmd := 0x00, plen := 0x00, endIdx := 0 } := by rw [hst, hbuf, hacc]

/-! ### Good runs -/

/-- The operation meets no condition of 60_exceptions.md R171: its word is not reserved, and it is no ENCODE of more than
255 bytes. -/
def LegalOperation (op : Operation) : Prop :=
  ∃ i, decode op.word = .ok i ∧ ∀ c, i = .encode c → op.port.length ≤ 255

/-- What O60 says of a step, for an issued operation: issuing `op` is the step of the state with `op` queued. -/
theorem issue_completes_good_iff (op : Operation) (rest : List Operation) {s : State} (hs : invariantHolds s = true) :
    ∃ t, issue op rest s = .next t ∧ invariantHolds t = true ∧
      (goodState t = true ↔ goodState s = true ∧ LegalOperation op) := by
  obtain ⟨t, hstep, hgood⟩ := stepStaysGoodExactlyOnLegalOperations { s with ops := op :: rest } op rest hs rfl
  exact ⟨t, hstep, stepKeepsTheInvariant { s with ops := op :: rest } t hs hstep, hgood⟩

/-- No operation clears a mark, so a run ends good only if every operation in it was legal. -/
theorem runOps_completes_good_iff (ops : List Operation) {s : State} (hs : invariantHolds s = true) :
    ∃ t, runOps ops s = .next t ∧ (goodState t = true ↔ goodState s = true ∧ ∀ op ∈ ops, LegalOperation op) := by
  induction ops generalizing s with
  | nil => exact ⟨s, runOps_nil s, by simp⟩
  | cons op later ih =>
    obtain ⟨u, hissue, hu, hgood⟩ := issue_completes_good_iff op s.ops hs
    obtain ⟨t, hrun, hlater⟩ := ih hu
    refine ⟨t, (runOps_cons_of_next hissue).trans hrun, ?_⟩
    rw [hlater, hgood, List.forall_mem_cons, and_assoc]

/-- Settles O58: the power-on state meets the invariant with either table, and is good. -/
theorem goodRunsAreTheLegalOnes : Obligations.GoodRunsAreTheLegalOnes := by
  intro conv ops
  obtain ⟨t, hrun, hgood⟩ :=
    runOps_completes_good_iff ops (s := { State.reset with conv := conv }) powerOnMeetsTheInvariant
  exact ⟨t, hrun, hgood.trans (and_iff_right rfl)⟩

end Sys2Proof.Proofs
end
